-- ==== Sys2Proof/Word.lean ====
section
/-! DEFINITION. The data words of the block: the byte, the request record of REQ and the tagged byte of OUT
(00_scope.md R9, 20_memory.md R40, 30_encoding.md R71). -/

namespace Sys2Proof

/-- A byte: an unsigned integer 0 to 255, bit 7 the most significant (00_scope.md R9, 20_memory.md R46). -/
abbrev Byte := BitVec 8

/-- A request record, one element of REQ: 33 bits in five fields presented in parallel (20_memory.md R40, R41,
30_encoding.md R71). The payload is not in it: `len` bytes follow on PAY. -/
structure Request where
  /-- device-id (`deviceId`) -/
  did : Byte
  /-- command-id (`commandId`) -/
  cid : Byte
  /-- sequence number (`sequence`) -/
  seq : Byte
  /-- the framing flag: true = the device should acknowledge (`framingFlag`) -/
  ack : Bool
  /-- L, the payload length; 0 to 254 legal, 255 raises LenFault (30_encoding.md R72) -/
  len : Byte
  deriving DecidableEq, Repr

/-- One element of OUT: a frame byte with its `last` tag (20_memory.md R40, R43). -/
structure OutByte where
  /-- `out_data` at the handshake -/
  data : Byte
  /-- `out_last` at the handshake: true on the checksum and on nothing else -/
  last : Bool
  deriving DecidableEq, Repr

end Sys2Proof
end

