-- ==== Sys2Proof/Machine/Layout.lean ====
section
/-! DEFINITION. The payload layouts of the upstream Command Encoder: the five kinds of 42_payload_producer.md R121, as the
static data of an operation's table entry. No argument stands here. -/

namespace Sys2Proof.Machine.Upstream

/-- The width of a fixed scalar: "fixed byte width (1/2/4 bytes)" (R121). -/
inductive Width where
  | one
  | two
  | four
  deriving DecidableEq, Repr

/-- The bytes of a width. -/
def Width.bytes : Width → Nat
  | .one => 1
  | .two => 2
  | .four => 4

/-- Where one boolean or enum input stands in its packed byte: the lowest bit, and how many bits (R123: "at fixed bit
positions"). -/
structure BitSlot where
  low : Nat
  bits : Nat
  deriving DecidableEq, Repr

/-- A field of a layout that packs inputs: a packed byte, or a scalar beside it (R131 has both). -/
inductive FieldLayout where
  | packed (slots : List BitSlot)
  | scalar (width : Width)
  deriving DecidableEq, Repr

/-- The bytes of a field. -/
def FieldLayout.bytes : FieldLayout → Nat
  | .packed _ => 1
  | .scalar width => width.bytes

/-- The caller-supplied byte sequences copied verbatim (R121, R124, R135, R136). -/
inductive BlobLayout where
  /-- at most 254 bytes (R124) -/
  | upload
  /-- an area selector and at most 253 bytes (R124) -/
  | fragment
  /-- a block of exactly 32 bytes (R135) -/
  | block32
  /-- a block of exactly 254 bytes (R135) -/
  | block254
  deriving DecidableEq, Repr

/-- The most payload bytes such a sequence makes. -/
def BlobLayout.maxSize : BlobLayout → Nat
  | .upload => 254
  | .fragment => 254
  | .block32 => 32
  | .block254 => 254

/-- `payloadLayout`: one of five kinds (R121). -/
inductive PayloadLayout where
  /-- "no payload" -/
  | empty
  /-- "N fields of fixed byte width (1/2/4 bytes), big-endian" -/
  | scalars (widths : List Width)
  /-- "boolean/enum inputs packed into fewer bytes than their count" -/
  | bitfield (fields : List FieldLayout)
  /-- "caller-supplied byte sequence copied verbatim" -/
  | blob (b : BlobLayout)
  /-- "presence of one optional trailing field changes total payload length" -/
  | conditional (widths : List Width) (trailing : Width)
  deriving DecidableEq, Repr

/-- The bytes of a run of scalars. -/
def widthsSize (widths : List Width) : Nat := (widths.map Width.bytes).sum

/-- The most payload bytes a layout makes. -/
def PayloadLayout.maxSize : PayloadLayout → Nat
  | .empty => 0
  | .scalars widths => widthsSize widths
  | .bitfield fields => (fields.map FieldLayout.bytes).sum
  | .blob b => b.maxSize
  | .conditional widths trailing => widthsSize widths + trailing.bytes

/-! The layouts of the document's table of payload shapes (R127 to R136). -/

/-- A setter of one byte (R127). -/
def layoutSetter1 : PayloadLayout := .scalars [.one]

/-- A setter of two bytes (R127). -/
def layoutSetter2 : PayloadLayout := .scalars [.two]

/-- Red, green, blue, persist flag (R128). -/
def layoutColor : PayloadLayout := .scalars [.one, .one, .one, .one]

/-- Speed, heading, state (R129). -/
def layoutRoll : PayloadLayout := .scalars [.one, .two, .one]

/-- Mode and power of two motors (R130). -/
def layoutRawMotors : PayloadLayout := .scalars [.one, .one, .one, .one]

/-- The packed flags at bits 0 to 3, angle limit, timeout, settle time (R131, R123). -/
def layoutLeveling : PayloadLayout :=
  .bitfield
    [.packed [{ low := 0, bits := 1 }, { low := 1, bits := 1 }, { low := 2, bits := 1 }, { low := 3, bits := 1 }],
      .scalar .one, .scalar .one, .scalar .one]

/-- Data streaming: 2 + 2 + 4 + 1 bytes, and 4 more with the second mask (R132, R125). -/
def layoutStreaming : PayloadLayout := .conditional [.two, .two, .four, .one] .four

/-- Six bytes: method, two thresholds, two speeds, dead-time (R133). -/
def layoutCollision : PayloadLayout := .scalars [.one, .one, .one, .one, .one, .one]

/-- Flags and three two-byte coordinates (R134). -/
def layoutLocator : PayloadLayout := .scalars [.one, .two, .two, .two]

end Sys2Proof.Machine.Upstream
end

