-- ==== Sys2Proof/Config.lean ====
section
/-! DEFINITION. What one instance of the block fixes when it is built (00_scope.md R5, R6), and the free values:
constants without a body, of which nothing can be proved but what holds of every value. -/

namespace Sys2Proof.Config

/-- The build-time parameters of an instance (00_scope.md R5, R6; 92_eei_decisions.md D1, D2, both OPEN). A statement
about every `Params` is a statement about every instance. -/
structure Params where
  /-- `SEQ_IN_FRAME`: true = the frame carries the sequence byte and the checksum covers it (R5) -/
  seqInFrame : Bool
  /-- `MARKER_A` (R6) -/
  markerA : Byte
  /-- `MARKER_B_ACK` (R6) -/
  markerBAck : Byte
  /-- `MARKER_B_NOACK` (R6) -/
  markerBNoack : Byte
  deriving DecidableEq, Repr

/-- The spec's one constraint on the parameters: `MARKER_B_ACK != MARKER_B_NOACK` (00_scope.md R6). -/
def Params.ok (p : Params) : Bool := p.markerBAck != p.markerBNoack

/-- The values the spec names where one must be assumed: S = 0 (R5, D1) and the markers FF, FF, FE (R6, from general
knowledge, G1). DESIGN CHOICE and PRESUMED (log entry 2): unsafe, because a claim about these values says nothing of
another instance. -/
def Params.specDefault : Params :=
  { seqInFrame := false, markerA := 0xFF, markerBAck := 0xFF, markerBNoack := 0xFE }

/-- `inc8(255)`: R10 uses inc8 only up to 254 and gives no value beyond, so this is a FREE VALUE (log entry 12). No run
from reset reaches it (41_emit_phases.md R111 (b)). -/
opaque inc8Past254 : Byte

/-- `rem - 1` at `rem = 0`: R113 (c) says it never happens, so this is a FREE VALUE (log entry 13). No run from reset
reaches it (R111 (c)). -/
opaque decPastZero : Byte

/-- `did_of(op)`: the device-id of an upstream operation. No number is in the source (91_not_in_source.md N4), so it is
a FREE VALUE (log entry 19). -/
opaque didOf : String → Byte

/-- `cid_of(op)`: the command-id of an upstream operation; a FREE VALUE as `didOf` (log entry 19). -/
opaque cidOf : String → Byte

/-- The payload layout of an upstream operation the source does not name, and whether there is such an operation at all:
the command table is not in the source (42_payload_producer.md R121, 91_not_in_source.md N4), so it is a FREE VALUE (log
entry 29). -/
opaque layoutOf : String → Option Machine.Upstream.PayloadLayout

/-- The byte a false Boolean argument writes. The source gives only `true`, 0x01 (30_encoding.md R75,
42_payload_producer.md R127, R128), so it is a FREE VALUE: DESIGN CHOICE (log entry 28). -/
opaque falseByte : Byte

/-- Whether an upstream operation is "not functioning" or "factory-only" on the current firmware. The source names none
(91_not_in_source.md N10), so it is a FREE VALUE (log entry 22). -/
opaque advisory : String → Bool

end Sys2Proof.Config
end

