-- ==== Sys2Proof/Machine/Arith.lean ====
section
/-! DEFINITION. The byte arithmetic of the block, all of it (00_scope.md R10, 41_emit_phases.md R113). -/

namespace Sys2Proof.Machine

/-- `add8(a, b) = (a + b) mod 256`: the carry out of bit 7 is discarded (R10, R113 (a)). -/
def add8 (a b : Byte) : Byte := a + b

/-- `not8(a) = 255 - a = a XOR 0xFF` (R10, R113 (d)). -/
def not8 (a : Byte) : Byte := ~~~a

/-- `sum8`: the modulo-256 sum of a byte sequence (R10). -/
def sum8 : List Byte → Byte
  | [] => 0
  | b :: t => add8 b (sum8 t)

/-- `inc8(a) = a + 1`, used only where `a <= 254`; for 255 the spec gives no value and this one is free
(R10, R113 (b); log entry 12). -/
def inc8 (a : Byte) : Byte := if a = 255 then Config.inc8Past254 else a + 1

/-- `rem - 1`, used only where `rem >= 1`; at 0 the spec gives no value and this one is free (R113 (c); log entry 13). -/
def dec8 (a : Byte) : Byte := if a = 0 then Config.decPastZero else a - 1

end Sys2Proof.Machine
end

