-- ==== Sys2Proof/Machine/Frame.lean ====
section
/-! DEFINITION. The frame: its fields, their order, the length byte and the checksum (30_encoding.md R60 to R70,
40_build.md R81). This is the frame level of 00_scope.md R12: functions on values, no state. -/

namespace Sys2Proof.Machine

/-- `MB(a) = a ? MARKER_B_ACK : MARKER_B_NOACK` (30_encoding.md R62). -/
def markerB (p : Config.Params) (ack : Bool) : Byte := if ack then p.markerBAck else p.markerBNoack

/-- The sequence byte, present exactly when S = 1 (30_encoding.md R65). -/
def seqPart (p : Config.Params) (seq : Byte) : List Byte := if p.seqInFrame then [seq] else []

/-- The length byte `LB = L + 1` (30_encoding.md R66). -/
def lengthByte (len : Byte) : Byte := inc8 len

/-- The bytes the checksum covers: `[DID, CID] ++ (S = 1 ? [SEQ] : []) ++ [LB] ++ payload` (30_encoding.md R68, R69). -/
def covered (p : Config.Params) (r : Request) (payload : List Byte) : List Byte :=
  [r.did, r.cid] ++ seqPart p r.seq ++ [lengthByte r.len] ++ payload

/-- `CHK = not8(sum8(covered))` (30_encoding.md R68). -/
def checksum (p : Config.Params) (r : Request) (payload : List Byte) : Byte :=
  not8 (sum8 (covered p r payload))

/-- Everything before the checksum: the two markers and the covered bytes. -/
def frameBody (p : Config.Params) (r : Request) (payload : List Byte) : List Byte :=
  [p.markerA, markerB p r.ack] ++ covered p r payload

/-- `Frame = [MARKER_A, MB(ack)] ++ covered ++ [CHK]` (30_encoding.md R60, 40_build.md R81). -/
def frame (p : Config.Params) (r : Request) (payload : List Byte) : List Byte :=
  frameBody p r payload ++ [checksum p r payload]

/-- Bytes as OUT holds them before the checksum: `last` is 0 (20_memory.md R43). -/
def untagged (bytes : List Byte) : List OutByte := bytes.map fun b => { data := b, last := false }

/-- A frame as OUT holds it: `last` is 1 on the checksum and 0 on every other byte (20_memory.md R43). -/
def frameOut (p : Config.Params) (r : Request) (payload : List Byte) : List OutByte :=
  untagged (frameBody p r payload) ++ [{ data := checksum p r payload, last := true }]

/-- `S = SEQ_IN_FRAME` as a number (00_scope.md, glossary). -/
def seqCount (p : Config.Params) : Nat := if p.seqInFrame then 1 else 0

/-- The record that stands for a call `build(did, cid, seq, payload, ack)`: `len` is the number of payload bytes
(20_memory.md R41, 30_encoding.md R74). -/
def requestOf (did cid seq : Byte) (ack : Bool) (payload : List Byte) : Request :=
  { did := did, cid := cid, seq := seq, ack := ack, len := BitVec.ofNat 8 payload.length }

end Sys2Proof.Machine
end

