-- ==== Sys2Proof/Syntax.lean ====
section
/-! DEFINITION. The operations of the block: one constructor per row of spec/opcode_table.json (30_encoding.md R73). -/

namespace Sys2Proof

/-- The thirteen operations. The two forms of BUILD carry their operands `(did, cid, seq, payload)`, the form being the
`ack` bit (40_build.md R80, R81). The phase-selected steps and RESET have no operand of their own: they read ports and
registers. -/
inductive Instr where
  /-- `BUILD.ACK`: build a frame whose marker B is `MARKER_B_ACK` (R81) -/
  | buildAck (did cid seq : Byte) (payload : List Byte)
  /-- `BUILD.NOACK`: build a frame whose marker B is `MARKER_B_NOACK` (R81) -/
  | buildNoack (did cid seq : Byte) (payload : List Byte)
  /-- `ACCEPT`: take a request, or fault (R101) -/
  | accept
  /-- `EMIT_MKA`: emit marker A (R102) -/
  | emitMka
  /-- `EMIT_MKB`: emit marker B (R103) -/
  | emitMkb
  /-- `EMIT_DID`: emit the device-id (R104) -/
  | emitDid
  /-- `EMIT_CID`: emit the command-id (R105) -/
  | emitCid
  /-- `EMIT_SEQ`: emit the sequence byte; exists only when S = 1 (R106) -/
  | emitSeq
  /-- `EMIT_LEN`: emit the length byte (R107) -/
  | emitLen
  /-- `EMIT_PAY`: copy one payload byte (R108) -/
  | emitPay
  /-- `EMIT_CHK`: emit the checksum (R109) -/
  | emitChk
  /-- `FAULTED`: do nothing until reset (R153) -/
  | faulted
  /-- `RESET`: return to IDLE (R171) -/
  | reset
  deriving DecidableEq, Repr

end Sys2Proof
end

