-- ==== Sys2Proof/WellFormed.lean ====
section
/-! DEFINITION. Which operations an instance has and which operands they may carry. -/

namespace Sys2Proof

/-- The precondition of BUILD: `L <= 254` (40_build.md R80). -/
def payloadLegal (payload : List Byte) : Bool := decide (payload.length ≤ 254)

/-- An operation is well formed for an instance when BUILD meets its precondition (R80) and EMIT_SEQ is asked only of an
instance whose frames carry the sequence byte (41_emit_phases.md R106). No other operand value is illegal
(30_encoding.md R72 (b)). -/
def WellFormed (p : Config.Params) : Instr → Bool
  | .buildAck _ _ _ payload => payloadLegal payload
  | .buildNoack _ _ _ payload => payloadLegal payload
  | .emitSeq => p.seqInFrame
  | .accept => true
  | .emitMka => true
  | .emitMkb => true
  | .emitDid => true
  | .emitCid => true
  | .emitLen => true
  | .emitPay => true
  | .emitChk => true
  | .faulted => true
  | .reset => true

end Sys2Proof
end

