-- ==== Sys2Proof/Decode.lean ====
section
/-! DEFINITION. Reading and writing the block's three encodings: the selection of an operation (phase code, `rst` port or
request record: 30_encoding.md R71, R73, 10_state.md R26), and the frame a BUILD row of the opcode table is encoded as
(30_encoding.md R60 to R70). -/

namespace Sys2Proof

/-- Why a word is no operation, or a byte sequence no frame. -/
inductive DecodeError where
  /-- phase codes 10 to 15 select nothing (30_encoding.md R73) -/
  | noSuchPhase (code : Nat)
  /-- `rst = 0` selects no operation by itself (R73) -/
  | rstLow
  /-- `len = 255` is the one illegal request encoding (30_encoding.md R72 (a)) -/
  | lenReserved
  /-- the payload does not hold `len` bytes (70_reset_and_hazards.md R179) -/
  | payloadCount (stated supplied : Nat)
  /-- the bytes end before the frame does (30_encoding.md R70) -/
  | frameTooShort
  /-- frame byte 0 is not `MARKER_A` (30_encoding.md R61) -/
  | notMarkerA (found : Byte)
  /-- frame byte 1 is neither marker-B value (30_encoding.md R62, R72 (c)) -/
  | notMarkerB (found : Byte)
  /-- a length byte of 0 is never produced (30_encoding.md R66) -/
  | lengthByteZero
  /-- the last byte is not the checksum of the covered bytes (30_encoding.md R68) -/
  | wrongChecksum (found : Byte)
  deriving DecidableEq, Repr

/-- What selects an operation (30_encoding.md R73): the 4-bit phase code, the level of the `rst` port, or a request
record with the payload that follows it on PAY (R71). -/
inductive Code where
  | phase (code : BitVec 4)
  | rst (high : Bool)
  | request (r : Request) (payload : List Byte)
  deriving DecidableEq, Repr

/-- The step a phase code selects (10_state.md R26, 30_encoding.md R73; the table's match under mask 0xF). -/
def decodePhase (code : BitVec 4) : Except DecodeError Instr :=
  match code.toNat with
  | 0 => .ok .accept
  | 1 => .ok .emitMka
  | 2 => .ok .emitMkb
  | 3 => .ok .emitDid
  | 4 => .ok .emitCid
  | 5 => .ok .emitSeq
  | 6 => .ok .emitLen
  | 7 => .ok .emitPay
  | 8 => .ok .emitChk
  | 9 => .ok .faulted
  | n => .error (.noSuchPhase n)

/-- The form of BUILD a request selects (30_encoding.md R71, R72, R73). -/
def decodeRequest (r : Request) (payload : List Byte) : Except DecodeError Instr :=
  if r.len = 255 then .error .lenReserved
  else if payload.length ≠ r.len.toNat then .error (.payloadCount r.len.toNat payload.length)
  else if r.ack then .ok (.buildAck r.did r.cid r.seq payload)
  else .ok (.buildNoack r.did r.cid r.seq payload)

/-- The decoder: total, and whatever it does not read it rejects by name. -/
def decode : Code → Except DecodeError Instr
  | .phase code => decodePhase code
  | .rst true => .ok .reset
  | .rst false => .error .rstLow
  | .request r payload => decodeRequest r payload

/-- The encoder, from the same tables (30_encoding.md R71, R73; 20_memory.md R41). -/
def encode : Instr → Code
  | .buildAck did cid seq payload => .request (Machine.requestOf did cid seq true payload) payload
  | .buildNoack did cid seq payload => .request (Machine.requestOf did cid seq false payload) payload
  | .accept => .phase 0
  | .emitMka => .phase 1
  | .emitMkb => .phase 2
  | .emitDid => .phase 3
  | .emitCid => .phase 4
  | .emitSeq => .phase 5
  | .emitLen => .phase 6
  | .emitPay => .phase 7
  | .emitChk => .phase 8
  | .faulted => .phase 9
  | .reset => .rst true

/-- What a frame carries. The sequence number is there only when S = 1 (30_encoding.md R65). -/
structure FrameFields where
  ack : Bool
  did : Byte
  cid : Byte
  seq : Option Byte
  payload : List Byte
  deriving DecidableEq, Repr

/-- The framing flag a marker B stands for (30_encoding.md R62). -/
def readMarkerB (p : Config.Params) (b : Byte) : Except DecodeError Bool :=
  if b = p.markerBAck then .ok true
  else if b = p.markerBNoack then .ok false
  else .error (.notMarkerB b)

/-- The part of a frame from the length byte on: `LB` further bytes, the last of them the checksum (30_encoding.md R66,
R70). `head` is what the checksum covers before the length byte. -/
def readTail (ack : Bool) (did cid : Byte) (seq : Option Byte) (head : List Byte) :
    List Byte → Except DecodeError (FrameFields × List Byte)
  | [] => .error .frameTooShort
  | lb :: rest =>
    if lb = 0 then .error .lengthByteZero
    else
      let payload := rest.take (lb.toNat - 1)
      match rest.drop (lb.toNat - 1) with
      | [] => .error .frameTooShort
      | chk :: after =>
        if chk = Machine.not8 (Machine.sum8 (head ++ [lb] ++ payload)) then
          .ok ({ ack := ack, did := did, cid := cid, seq := seq, payload := payload }, after)
        else .error (.wrongChecksum chk)

/-- Reads one frame from the front of a byte sequence and answers its fields and the bytes after it. The length byte
alone tells where the frame ends (30_encoding.md R70). -/
def readFrame (p : Config.Params) : List Byte → Except DecodeError (FrameFields × List Byte)
  | a :: b :: did :: cid :: rest =>
    if a = p.markerA then
      match readMarkerB p b with
      | .error e => .error e
      | .ok ack =>
        if p.seqInFrame then
          match rest with
          | [] => .error .frameTooShort
          | seq :: rest' => readTail ack did cid (some seq) [did, cid, seq] rest'
        else readTail ack did cid none [did, cid] rest
    else .error (.notMarkerA a)
  | _ => .error .frameTooShort

/-- The BUILD a frame is the result of. With S = 0 the frame does not carry the sequence number and no byte depends on
it (40_build.md R87), so the operand is written 0 (log entry 18). -/
def FrameFields.toInstr (f : FrameFields) : Instr :=
  if f.ack then .buildAck f.did f.cid (f.seq.getD 0) f.payload
  else .buildNoack f.did f.cid (f.seq.getD 0) f.payload

/-- The `n` bytes of a table word, bits 7..0 the first (the opcode table's numbering). -/
def wordBytes : Nat → Nat → List Byte
  | 0, _ => []
  | n + 1, w => BitVec.ofNat 8 w :: wordBytes n (w / 256)

/-- Reads the fixed-width head of a frame, the part the opcode table draws (30_encoding.md R60). The payload bytes, which
the table gives no bits, are zeros; the checksum is computed, not an operand, and is not read. -/
def readHead (p : Config.Params) : List Byte → Except DecodeError FrameFields
  | a :: b :: did :: cid :: rest =>
    if a = p.markerA then
      match readMarkerB p b, (if p.seqInFrame then rest else 0 :: rest) with
      | .error e, _ => .error e
      | .ok ack, seq :: lb :: _ =>
        if lb = 0 then .error .lengthByteZero
        else
          .ok { ack := ack, did := did, cid := cid, seq := if p.seqInFrame then some seq else none,
                payload := List.replicate (lb.toNat - 1) 0 }
      | .ok _, _ => .error .frameTooShort
    else .error (.notMarkerA a)
  | _ => .error .frameTooShort

/-- The operation the decoder reads from a word of the opcode table (log entry 18). A word of one to eight bits is a phase
code (mask 0xF: bits 3..0). A longer one is the head of a frame, of an instance with the default markers and with the
sequence byte when the row gives 48 bits or more. No bits at all is the row the `rst` port selects. -/
def decodeTableWord (nbits w : Nat) : Option Instr :=
  if nbits = 0 then (decode (.rst true)).toOption
  else if nbits ≤ 8 then (decode (.phase (BitVec.ofNat 4 w))).toOption
  else
    match readHead { Config.Params.specDefault with seqInFrame := decide (48 ≤ nbits) } (wordBytes (nbits / 8) w) with
    | .ok f => some f.toInstr
    | .error _ => none

end Sys2Proof
end

