-- ==== Sys2Proof/Machine/State.lean ====
section
/-! DEFINITION. The state of the machine: the block's eight registers (10_state.md R25), the three streams
(20_memory.md R40), the input levels (10_state.md R21 to R24), what the environment does next, and the instance's
parameters; the ways a step can stop; the state after reset. -/

namespace Sys2Proof.Machine

/-- The ten values of the phase register (10_state.md R26). Codes 10 to 15 are never taken and have no counterpart
(93_implementation_defined.md U17). -/
inductive Phase where
  | idle
  | mka
  | mkb
  | did
  | cid
  | seq
  | len
  | pay
  | chk
  | fault
  deriving DecidableEq, Repr

/-- The levels of the one-bit inputs just before the next rising edge. `reqValid` and `plValid` say that the requester
and the producer offer the head of their stream, if there is one. -/
structure Pins where
  /-- `rst`, active high (10_state.md R21) -/
  rst : Bool
  /-- the requester offers (R22) -/
  reqValid : Bool
  /-- the payload producer offers (R23) -/
  plValid : Bool
  /-- `out_ready` (R24) -/
  outReady : Bool
  deriving DecidableEq, Repr

/-- What an environment agent does to its stream between two edges: it may empty it first (70_reset_and_hazards.md R173)
and it may add elements at the end. Both together replace the contents, so every behaviour of the agent is admitted,
violations of R176 and R177 among them (93_implementation_defined.md U13). -/
structure Supply (α : Type) where
  flush : Bool
  add : List α
  deriving DecidableEq, Repr

/-- What the environment does after one edge (10_state.md R20, 70_reset_and_hazards.md R182). -/
structure EnvMove where
  pins : Pins
  reqs : Supply Request
  pays : Supply Byte
  deriving DecidableEq, Repr

/-- Why a step stops the machine. LenFault is none of these: its entry is described (60_exceptions.md R152), so the
machine goes on in phase FAULT. -/
inductive Fault where
  /-- Raised by `execEmitSeq` when S = 0, where the step and the phase SEQ do not exist (41_emit_phases.md R106), and by
  `step` if the decoder rejects the phase code. Safe: the machine stops where the spec gives no effect. No run from
  reset raises it (R111 (a)). -/
  | noStepSelected
  deriving DecidableEq, Repr

/-- Why an operation has no meaning. -/
inductive Refusal where
  /-- An operation rejected by name in `exec`. Raised by no arm: every operation has its meaning. Safe. -/
  | notModelled (mnemonic : String)
  /-- Raised by the two forms of BUILD on a payload of more than 255 bytes, which the 8-bit `req_len` port cannot
  express (30_encoding.md R72 (a)). Safe: no frame is claimed for it. -/
  | lengthNotExpressible (length : Nat)
  deriving DecidableEq, Repr

/-- The state of one instance and of the streams and levels around it. -/
structure State where
  /-- the program counter (10_state.md R26) -/
  phase : Phase
  /-- device-id of the frame in progress (R27) -/
  didR : Byte
  /-- command-id of the frame in progress (R28) -/
  cidR : Byte
  /-- sequence number of the frame in progress (R29) -/
  seqR : Byte
  /-- framing flag of the frame in progress (R30) -/
  ackR : Bool
  /-- L of the frame in progress (R31) -/
  lenR : Byte
  /-- payload bytes not yet copied (R32) -/
  rem : Byte
  /-- running sum of the checksummed bytes (R33) -/
  sum : Byte
  /-- REQ: records offered and not yet taken, oldest first (20_memory.md R41) -/
  req : List Request
  /-- PAY: bytes offered and not yet taken, oldest first (R42) -/
  pay : List Byte
  /-- OUT: every byte written, oldest first (R43) -/
  out : List OutByte
  /-- the input levels at the next edge -/
  pins : Pins
  /-- what the environment does after each of the next edges; when none is left the levels and the streams stay as they
  are (log entry 5) -/
  env : List EnvMove
  /-- the instance's parameters: no step writes them (00_scope.md R5, R6; log entry 1) -/
  inst : Config.Params
  deriving DecidableEq, Repr

/-- The state after reset: the eight registers as 10_state.md R37 says; the streams empty, the levels low and the
environment idle (DESIGN CHOICE, log entries 3, 4, 5); the spec's default parameters (log entry 2). -/
def State.reset : State :=
  { phase := .idle
    didR := 0
    cidR := 0
    seqR := 0
    ackR := false
    lenR := 0
    rem := 0
    sum := 0
    req := []
    pay := []
    out := []
    pins := { rst := false, reqValid := false, plValid := false, outReady := false }
    env := []
    inst := Config.Params.specDefault }

end Sys2Proof.Machine
end

