-- ==== Sys2Proof/Machine/Operands.lean ====
section
/-! DEFINITION. The operand forms: the two input ports as the block sees them, and the byte each emitting phase offers
(10_state.md R22, R23, R38; 41_emit_phases.md R102 to R109). -/

namespace Sys2Proof.Machine

/-- The request port: the head of REQ while the requester offers it; `req_valid` is whether there is one (10_state.md
R22, 20_memory.md R41). -/
def State.reqPort (s : State) : Option Request := if s.pins.reqValid then s.req.head? else none

/-- The payload port: the head of PAY while the producer offers it; `pl_valid` is whether there is one (10_state.md R23,
20_memory.md R42). -/
def State.plPort (s : State) : Option Byte := if s.pins.plValid then s.pay.head? else none

/-- The request the latches hold (10_state.md R27 to R31). -/
def State.latched (s : State) : Request :=
  { did := s.didR, cid := s.cidR, seq := s.seqR, ack := s.ackR, len := s.lenR }

/-- The operand of EMIT_MKB: `ack_r ? MARKER_B_ACK : MARKER_B_NOACK` (41_emit_phases.md R103). -/
def State.markerBByte (s : State) : Byte := markerB s.inst s.ackR

/-- The operand of EMIT_LEN: `inc8(len_r)` (41_emit_phases.md R107). -/
def State.lengthByte (s : State) : Byte := Machine.lengthByte s.lenR

/-- The operand of EMIT_CHK: `not8(sum)` (41_emit_phases.md R109). -/
def State.checksumByte (s : State) : Byte := not8 s.sum

/-- `out_data` per phase (10_state.md R38). `none` is the table's x: in IDLE, in FAULT, and in PAY while no byte is
offered, any value may stand on the port and none may be read (93_implementation_defined.md U5; log entry 14). -/
def State.outData (s : State) : Option Byte :=
  match s.phase with
  | .idle => none
  | .mka => some s.inst.markerA
  | .mkb => some s.markerBByte
  | .did => some s.didR
  | .cid => some s.cidR
  | .seq => some s.seqR
  | .len => some s.lengthByte
  | .pay => s.plPort
  | .chk => some s.checksumByte
  | .fault => none

end Sys2Proof.Machine
end

