-- ==== Sys2Proof/Machine/Flags.lean ====
section
/-! DEFINITION. There are no condition codes (10_state.md R34). What plays their part: the three status outputs, pure
functions of the phase, and the three comparisons the steps branch on (41_emit_phases.md R110, R113 (e)). -/

namespace Sys2Proof.Machine

/-- `busy`: a frame is in progress; `phase` not in IDLE, FAULT (10_state.md R24). -/
def State.busy (s : State) : Bool := s.phase != .idle && s.phase != .fault

/-- `fault`: `phase == FAULT` (10_state.md R24). -/
def State.faultOut (s : State) : Bool := s.phase == .fault

/-- `out_last`: `phase == CHK` (10_state.md R24). -/
def State.outLast (s : State) : Bool := s.phase == .chk

/-- The test of ACCEPT: `len = 255`, on `req_len` alone (41_emit_phases.md R101). -/
def lenIllegal (r : Request) : Bool := r.len == 255

/-- Where EMIT_CID goes: SEQ when S = 1, LEN when S = 0 (41_emit_phases.md R105, R110). -/
def State.afterCid (s : State) : Phase := if s.inst.seqInFrame then .seq else .len

/-- Where EMIT_LEN goes: CHK when `rem = 0`, else PAY (R107, R110). -/
def State.afterLen (s : State) : Phase := if s.rem = 0 then .chk else .pay

/-- Where EMIT_PAY goes: CHK when the old `rem` is 1, else PAY (R108, R110). -/
def State.afterPay (s : State) : Phase := if s.rem = 1 then .chk else .pay

end Sys2Proof.Machine
end

