-- ==== Sys2Proof/Machine/Ports.lean ====
section
/-! DEFINITION. The outputs as functions of the state (10_state.md R38) and the three handshakes (R22, R23, R24). -/

namespace Sys2Proof.Machine

/-- The seven outputs (10_state.md R22 to R24). `outData` is `none` where R38 leaves it unspecified. -/
structure Outputs where
  reqReady : Bool
  plReady : Bool
  outValid : Bool
  outData : Option Byte
  outLast : Bool
  busy : Bool
  fault : Bool
  deriving DecidableEq, Repr

/-- `req_ready`: `phase == IDLE` (10_state.md R22). -/
def State.reqReady (s : State) : Bool := s.phase == .idle

/-- `pl_ready`: `phase == PAY && out_ready` (10_state.md R23). -/
def State.plReady (s : State) : Bool := s.phase == .pay && s.pins.outReady

/-- `out_valid`: the block offers a byte; in PAY it follows `pl_valid` (10_state.md R38). -/
def State.outValid (s : State) : Bool := s.outData.isSome

/-- All outputs (10_state.md R38). -/
def State.outputs (s : State) : Outputs :=
  { reqReady := s.reqReady
    plReady := s.plReady
    outValid := s.outValid
    outData := s.outData
    outLast := s.outLast
    busy := s.busy
    fault := s.faultOut }

/-- The record handed over at this edge: `req_valid`, `req_ready` and `rst = 0` (10_state.md R22). -/
def State.reqHandshake (s : State) : Option Request :=
  if s.reqReady && !s.pins.rst then s.reqPort else none

/-- The byte handed over on OUT at this edge: `out_valid`, `out_ready` and `rst = 0` (10_state.md R24). -/
def State.outHandshake (s : State) : Option Byte :=
  if s.pins.outReady && !s.pins.rst then s.outData else none

/-- The byte handed over on PAY at this edge: `pl_valid`, `pl_ready` and `rst = 0` (10_state.md R23). -/
def State.plHandshake (s : State) : Option Byte :=
  if s.plReady && !s.pins.rst then s.plPort else none

end Sys2Proof.Machine
end

