-- ==== Sys2Proof/Machine/Ops.lean ====
section
/-! DEFINITION. The named operations over registers and streams: register writes, the stream primitives of 00_scope.md
R11, the fault entry and the reset, the emission of one byte, the environment's move after an edge, and the selection of
the next operation. -/

namespace Sys2Proof.Machine

/-- `phase <- p` -/
def State.setPhase (s : State) (p : Phase) : State := { s with phase := p }

/-- `sum <- v` -/
def State.setSum (s : State) (v : Byte) : State := { s with sum := v }

/-- `rem <- v` -/
def State.setRem (s : State) (v : Byte) : State := { s with rem := v }

/-- The removal of `MemRead(REQ, 1)`: the head record leaves REQ (00_scope.md R11, 20_memory.md R49). -/
def State.popReq (s : State) : State := { s with req := s.req.tail }

/-- The removal of `MemRead(PAY, 1)`: the head byte leaves PAY (00_scope.md R11, 20_memory.md R49). -/
def State.popPay (s : State) : State := { s with pay := s.pay.tail }

/-- `MemWrite(OUT, 1, v)` with its `last` tag: one byte at the end of OUT (00_scope.md R11, 20_memory.md R43). -/
def State.writeOut (s : State) (v : Byte) (last : Bool) : State :=
  { s with out := s.out ++ [{ data := v, last := last }] }

/-- The latches of ACCEPT: the five fields, `rem <- len`, `sum <- 0` (41_emit_phases.md R101). -/
def State.latch (s : State) (r : Request) : State :=
  { s with didR := r.did, cidR := r.cid, seqR := r.seq, ackR := r.ack, lenR := r.len, rem := r.len, sum := 0 }

/-- TAKING THE EXCEPTION: the entry of LenFault (60_exceptions.md R152): `phase <- FAULT` and no other register. Nothing
is saved anywhere, there is no handler and no mode. -/
def State.enterLenFault (s : State) : State := s.setPhase .fault

/-- The return from the exception, and the reset: every register to its reset value, the streams untouched
(70_reset_and_hazards.md R171, R172; 60_exceptions.md R154). -/
def State.resetRegs (s : State) : State :=
  { s with phase := .idle, didR := 0, cidR := 0, seqR := 0, ackR := false, lenR := 0, rem := 0, sum := 0 }

/-- What ACCEPT does with the record it takes (41_emit_phases.md R101): the record leaves REQ, and either LenFault is
entered and nothing is latched, or the record is latched and the frame begins. -/
def State.takeRequest (s : State) (r : Request) : State :=
  if lenIllegal r then s.popReq.enterLenFault else (s.popReq.latch r).setPhase .mka

/-- The common shape of the EMIT steps (41_emit_phases.md R100, R112): in its own phase, when the OUT handshake
completes, the step's result `t` is the next state. Otherwise no register and no stream changes. -/
def State.onEmit (s : State) (own : Phase) (t : State) : State :=
  if s.phase = own ∧ s.outHandshake.isSome then t else s

/-- A summed byte: written to OUT with `last = 0` and added to `sum` (10_state.md R33). -/
def State.emitSummed (s : State) (b : Byte) : State := (s.writeOut b false).setSum (add8 s.sum b)

/-- A request and its payload put at the end of REQ and PAY (20_memory.md R41, R42, R51). -/
def State.offer (s : State) (r : Request) (payload : List Byte) : State :=
  { s with req := s.req ++ [r], pay := s.pay ++ payload }

/-- The whole of a legal request at the head of REQ, carried out: the record leaves REQ, the next `len` bytes leave PAY,
their frame enters OUT, and the registers are as the checksum step leaves them (40_build.md R81, R88, R89). -/
def State.buildHead (s : State) (r : Request) : State :=
  let payload := s.pay.take r.len.toNat
  { (s.popReq.latch r).setPhase .idle with
    pay := s.pay.drop r.len.toNat
    out := s.out ++ frameOut s.inst r payload
    rem := 0
    sum := sum8 (covered s.inst r payload) }

/-- Whether a request offered now is the next one the block takes: out of reset, idle, and no older request waiting
(10_state.md R22, 20_memory.md R51). -/
def State.takesNext (s : State) : Bool := !s.pins.rst && s.reqReady && s.req.isEmpty

/-- BUILD, the frame-level operation, both forms (40_build.md R81, R85, R90). The request goes to REQ and its payload to
PAY. If the block takes it next, it is carried out, or faults when `len = 255`. Otherwise it waits and is not lost. A
payload the `req_len` port cannot express is refused (30_encoding.md R72 (a)). -/
def State.build (s : State) (ack : Bool) (did cid seq : Byte) (payload : List Byte) :
    Host.Outcome State Fault Refusal :=
  if 255 < payload.length then .refused (.lengthNotExpressible payload.length)
  else
    let r := requestOf did cid seq ack payload
    let t := s.offer r payload
    if s.takesNext then
      if lenIllegal r then .next t.popReq.enterLenFault else .next (t.buildHead r)
    else .next t

/-- A stream after its agent's move: emptied if the agent flushes it, then extended. -/
def Supply.apply {α : Type} (u : Supply α) (stream : List α) : List α :=
  (if u.flush then [] else stream) ++ u.add

/-- The environment's move after an edge (10_state.md R20, 70_reset_and_hazards.md R182): its next entry is applied; when
there is none, nothing outside the block changes (log entry 5). -/
def State.clock (s : State) : State :=
  match s.env with
  | [] => s
  | m :: rest => { s with pins := m.pins, req := m.reqs.apply s.req, pay := m.pays.apply s.pay, env := rest }

/-- The 4-bit code of a phase (10_state.md R26). -/
def Phase.code : Phase → BitVec 4
  | .idle => 0
  | .mka => 1
  | .mkb => 2
  | .did => 3
  | .cid => 4
  | .seq => 5
  | .len => 6
  | .pay => 7
  | .chk => 8
  | .fault => 9

/-- What selects the operation of this edge: `rst = 1` before everything, else the phase (41_emit_phases.md R100,
60_exceptions.md R158). -/
def State.selector (s : State) : Code := if s.pins.rst then .rst true else .phase s.phase.code

/-- The operation of this edge, as the decoder reads it. -/
def State.fetch (s : State) : Except DecodeError Instr := decode s.selector

/-- The end of an edge: after a next state the environment moves; a stop stays a stop. -/
def afterEdge : Host.Outcome State Fault Refusal → Host.Outcome State Fault Refusal
  | .next s => .next s.clock
  | .fault f => .fault f
  | .refused r => .refused r

/-- The levels at which any step completes: out of reset, everyone willing. -/
def Pins.willing : Pins := { rst := false, reqValid := true, plValid := true, outReady := true }

/-- The phase at which a step is the next to run. Operations that no phase selects are reached from IDLE. -/
def startPhase : Instr → Phase
  | .accept => .idle
  | .emitMka => .mka
  | .emitMkb => .mkb
  | .emitDid => .did
  | .emitCid => .cid
  | .emitSeq => .seq
  | .emitLen => .len
  | .emitPay => .pay
  | .emitChk => .chk
  | .faulted => .fault
  | .buildAck _ _ _ _ => .idle
  | .buildNoack _ _ _ _ => .idle
  | .reset => .idle

/-- The state made ready for one operation to run and complete at the next edge (log entry 17): its phase, willing
levels, and where the step needs one, an element in its stream, `rem` at least 1, and an instance that has the step. -/
def State.readyFor (s : State) (i : Instr) : State :=
  let t := { s with phase := startPhase i, pins := Pins.willing }
  match i with
  | .accept => if t.req.isEmpty then t.offer (requestOf 0 0 0 false []) [] else t
  | .emitSeq => { t with inst := { t.inst with seqInFrame := true } }
  | .emitPay =>
    { t with pay := if t.pay.isEmpty then [0] else t.pay, rem := if t.rem = 0 then 1 else t.rem }
  | .buildAck did cid seq payload => t.offer (requestOf did cid seq true payload) payload
  | .buildNoack did cid seq payload => t.offer (requestOf did cid seq false payload) payload
  | .reset => { t with pins := { t.pins with rst := true } }
  | .emitMka => t
  | .emitMkb => t
  | .emitDid => t
  | .emitCid => t
  | .emitLen => t
  | .emitChk => t
  | .faulted => t

end Sys2Proof.Machine
end

