-- ==== Sys2Proof/Machine/Accept.lean ====
section
/-! DEFINITION. The family of the request channel: ACCEPT (41_emit_phases.md R101). -/

namespace Sys2Proof.Machine

/-- ACCEPT: when the request handshake completes, take the record; LenFault when its `len` is 255; otherwise hold
(41_emit_phases.md R101, R112). -/
def execAccept (s : State) : Host.Outcome State Fault Refusal :=
  .next (match s.reqHandshake with
    | none => s
    | some r => s.takeRequest r)

end Sys2Proof.Machine
end

