-- ==== Sys2Proof/Machine/Build.lean ====
section
/-! DEFINITION. The family of frame-level operations: the two forms of BUILD (40_build.md). -/

namespace Sys2Proof.Machine

/-- BUILD.ACK: the frame's marker B is `MARKER_B_ACK` (40_build.md R81). -/
def execBuildAck (did cid seq : Byte) (payload : List Byte) (s : State) : Host.Outcome State Fault Refusal :=
  s.build true did cid seq payload

/-- BUILD.NOACK: the frame's marker B is `MARKER_B_NOACK` (40_build.md R81). -/
def execBuildNoack (did cid seq : Byte) (payload : List Byte) (s : State) : Host.Outcome State Fault Refusal :=
  s.build false did cid seq payload

end Sys2Proof.Machine
end

