-- ==== Sys2Proof/Machine/Emit.lean ====
section
/-! DEFINITION. The family of the output channel: the eight EMIT steps (41_emit_phases.md R102 to R109). Every right-hand
side reads the state before the edge (R100). -/

namespace Sys2Proof.Machine

/-- EMIT_MKA: marker A, not summed (41_emit_phases.md R102). -/
def execEmitMka (s : State) : Host.Outcome State Fault Refusal :=
  .next (s.onEmit .mka ((s.writeOut s.inst.markerA false).setPhase .mkb))

/-- EMIT_MKB: marker B by the framing flag, not summed (R103). -/
def execEmitMkb (s : State) : Host.Outcome State Fault Refusal :=
  .next (s.onEmit .mkb ((s.writeOut s.markerBByte false).setPhase .did))

/-- EMIT_DID: the device-id (R104). -/
def execEmitDid (s : State) : Host.Outcome State Fault Refusal :=
  .next (s.onEmit .did ((s.emitSummed s.didR).setPhase .cid))

/-- EMIT_CID: the command-id; then SEQ or LEN by S (R105). -/
def execEmitCid (s : State) : Host.Outcome State Fault Refusal :=
  .next (s.onEmit .cid ((s.emitSummed s.cidR).setPhase s.afterCid))

/-- EMIT_SEQ: the sequence byte. It exists only when S = 1 (R106); in another instance there is no such step, and the
machine stops by name. -/
def execEmitSeq (s : State) : Host.Outcome State Fault Refusal :=
  if s.inst.seqInFrame then .next (s.onEmit .seq ((s.emitSummed s.seqR).setPhase .len))
  else .fault .noStepSelected

/-- EMIT_LEN: the length byte `L + 1`, summed as such; then CHK or PAY by `rem` (R107). -/
def execEmitLen (s : State) : Host.Outcome State Fault Refusal :=
  .next (s.onEmit .len ((s.emitSummed s.lengthByte).setPhase s.afterLen))

/-- EMIT_PAY: the offered payload byte, copied unchanged on the same edge; `rem` counts down; then CHK or PAY by the old
`rem` (R108). With no byte offered it holds (60_exceptions.md R155). -/
def execEmitPay (s : State) : Host.Outcome State Fault Refusal :=
  .next (match s.plPort with
    | none => s
    | some b => s.onEmit .pay (((s.popPay.emitSummed b).setRem (dec8 s.rem)).setPhase s.afterPay))

/-- EMIT_CHK: the complement of `sum`, the one byte with `last = 1`; then IDLE (R109). -/
def execEmitChk (s : State) : Host.Outcome State Fault Refusal :=
  .next (s.onEmit .chk ((s.writeOut s.checksumByte true).setPhase .idle))

end Sys2Proof.Machine
end

