-- ==== Sys2Proof/Machine/System.lean ====
section
/-! DEFINITION. The family of system operations (41_emit_phases.md R115): the faulted condition and RESET. -/

namespace Sys2Proof.Machine

/-- FAULTED: no register changes (60_exceptions.md R153). -/
def execFaulted (s : State) : Host.Outcome State Fault Refusal := .next s

/-- RESET: selected by `rst = 1`; every register to its reset value, no handshake completes, the streams keep their
contents (70_reset_and_hazards.md R171, R172). With `rst = 0` there is no RESET and nothing changes. -/
def execReset (s : State) : Host.Outcome State Fault Refusal :=
  .next (if s.pins.rst then s.resetRegs else s)

end Sys2Proof.Machine
end

