-- ==== Sys2Proof/Machine/Dispatch.lean ====
section
/-! DEFINITION. One arm per operation (30_encoding.md R73). -/

namespace Sys2Proof.Machine

/-- What an operation does at one rising edge. -/
def exec (i : Instr) (s : State) : Host.Outcome State Fault Refusal :=
  match i with
  | .buildAck did cid seq payload => Sys2Proof.Machine.execBuildAck did cid seq payload s
  | .buildNoack did cid seq payload => Sys2Proof.Machine.execBuildNoack did cid seq payload s
  | .accept => Sys2Proof.Machine.execAccept s
  | .emitMka => Sys2Proof.Machine.execEmitMka s
  | .emitMkb => Sys2Proof.Machine.execEmitMkb s
  | .emitDid => Sys2Proof.Machine.execEmitDid s
  | .emitCid => Sys2Proof.Machine.execEmitCid s
  | .emitSeq => Sys2Proof.Machine.execEmitSeq s
  | .emitLen => Sys2Proof.Machine.execEmitLen s
  | .emitPay => Sys2Proof.Machine.execEmitPay s
  | .emitChk => Sys2Proof.Machine.execEmitChk s
  | .faulted => Sys2Proof.Machine.execFaulted s
  | .reset => Sys2Proof.Machine.execReset s

end Sys2Proof.Machine
end

