-- ==== Sys2Proof/Machine/Step.lean ====
section
/-! DEFINITION. One step is one rising edge of `clk`: the selected operation, then the environment's move
(41_emit_phases.md R100, R112; log entry 6). -/

namespace Sys2Proof.Machine

/-- One rising edge. -/
def step (s : State) : Host.Outcome State Fault Refusal :=
  match s.fetch with
  | .ok i => afterEdge (exec i s)
  | .error _ => .fault .noStepSelected

/-- The state with the operation of a table word placed where the next step selects it (log entry 17). A word the decoder
refuses leaves the state as it is. A BUILD is placed as a request with its payload, and the next step is its ACCEPT. -/
def State.withFetchWord (s : State) (nbits w : Nat) : State :=
  match decodeTableWord nbits w with
  | some i => s.readyFor i
  | none => s

end Sys2Proof.Machine
end

