-- ==== Sys2Proof/Machine/Upstream.lean ====
section
/-! DEFINITION. The upstream environment: the Command Encoder and what the packet envelope initializer hands it
(42_payload_producer.md). It is not part of the block (00_scope.md R4). It produces the BUILD requests the block is
given, and the block's one input premise, at most 254 payload bytes, is enforced here. -/

namespace Sys2Proof.Machine.Upstream

/-! ## Layout rules -/

/-- A fixed-width scalar: `w` bytes, big-endian, the value taken modulo `2^(8w)` (R122, R140). Signed and unsigned values
alike are integers, and a negative one comes out in two's complement (R122, G6; log entry 20). -/
def scalar (w : Nat) (v : Int) : List Byte :=
  (List.range w).map fun i => BitVec.ofInt 8 (v / 256 ^ (w - 1 - i))

/-- One argument written to a fixed-width field. -/
structure Scalar where
  width : Width
  value : Int
  deriving DecidableEq, Repr

/-- The bytes of a field (R122). -/
def Scalar.encode (f : Scalar) : List Byte := scalar f.width.bytes f.value

/-- One boolean or enum input of a packed byte: a Boolean is 0 or 1 in one bit (R123). -/
structure BitInput where
  slot : BitSlot
  value : Nat
  deriving DecidableEq, Repr

/-- The input at its bit positions; a value too wide wraps at the width of its slot (R123, R140). -/
def BitInput.encode (i : BitInput) : Byte := BitVec.ofNat 8 (i.value % 2 ^ i.slot.bits * 2 ^ i.slot.low)

/-- Inputs combined "with bitwise OR into one byte" (R123). -/
def pack (inputs : List BitInput) : Byte := inputs.foldr (fun i acc => i.encode ||| acc) 0

/-- A field of a bitfield layout with its arguments. -/
inductive Field where
  | packed (inputs : List BitInput)
  | scalar (s : Scalar)
  deriving DecidableEq, Repr

/-- The bytes of a field. -/
def Field.encode : Field → List Byte
  | .packed inputs => [pack inputs]
  | .scalar s => s.encode

/-- Where a field's arguments stand. -/
def Field.layout : Field → FieldLayout
  | .packed inputs => .packed (inputs.map BitInput.slot)
  | .scalar s => .scalar s.width

/-- A caller's byte sequence (R124, R135). -/
inductive Blob where
  | upload (bytes : List Byte)
  | fragment (area : Byte) (bytes : List Byte)
  | block32 (block : Vector Byte 32)
  | block254 (block : Vector Byte 254)
  deriving DecidableEq, Repr

/-- Its layout. -/
def Blob.layout : Blob → BlobLayout
  | .upload _ => .upload
  | .fragment _ _ => .fragment
  | .block32 _ => .block32
  | .block254 _ => .block254

/-- The arguments of an operation, laid out: one constructor per kind of R121. -/
inductive Shape where
  | empty
  | scalars (fields : List Scalar)
  | bitfield (fields : List Field)
  | blob (b : Blob)
  | conditional (fields : List Scalar) (trailing : Width) (value : Option Int)
  deriving DecidableEq, Repr

/-- The static layout the arguments are of. -/
def Shape.layout : Shape → PayloadLayout
  | .empty => .empty
  | .scalars fields => .scalars (fields.map Scalar.width)
  | .bitfield fields => .bitfield (fields.map Field.layout)
  | .blob b => .blob b.layout
  | .conditional fields trailing _ => .conditional (fields.map Scalar.width) trailing

/-- The one hard failure upstream (R138; 90_conflicts.md C3). -/
inductive Error where
  /-- the caller's bytes exceed the command's cap; no request reaches the block (R138) -/
  | payloadTooLarge (supplied cap : Nat)
  deriving DecidableEq, Repr

/-- A caller's blob within its cap, behind the bytes that go before it (R124). -/
def capped (cap : Nat) (lead bytes : List Byte) : Except Error (List Byte) :=
  if cap < bytes.length then .error (.payloadTooLarge bytes.length cap) else .ok (lead ++ bytes)

/-- A byte sequence copied verbatim, against its cap (R124, R135, R136). -/
def Blob.encode : Blob → Except Error (List Byte)
  | .upload bytes => capped 254 [] bytes
  | .fragment area bytes => capped 253 [area] bytes
  | .block32 block => .ok block.toList
  | .block254 block => .ok block.toList

/-- The payload of the laid-out arguments (R122 to R125). An absent trailing field and its bytes are omitted (R125). -/
def encodePayload : Shape → Except Error (List Byte)
  | .empty => .ok []
  | .scalars fields => .ok (fields.flatMap Scalar.encode)
  | .bitfield fields => .ok (fields.flatMap Field.encode)
  | .blob b => b.encode
  | .conditional fields trailing value =>
    .ok (fields.flatMap Scalar.encode ++ (value.map (scalar trailing.bytes)).getD [])

/-! ## The document's payload shapes, from their typed arguments (R127 to R136) -/

/-- A Boolean argument as a byte: `true` is 0x01 (R127, R128). No byte for `false` is in the source: that one is a free
value (DESIGN CHOICE, log entry 28). -/
def boolByte (b : Bool) : Byte := if b then 1 else Config.falseByte

/-- A setter of one byte (R127). -/
def setter1 (v : Int) : Shape := .scalars [{ width := .one, value := v }]

/-- A setter of two bytes (R127). -/
def setter2 (v : Int) : Shape := .scalars [{ width := .two, value := v }]

/-- A setter of one Boolean (R127; E1 of 95_test_vectors.md). -/
def setterBool (b : Bool) : Shape := setter1 (boolByte b).toNat

/-- A 24-bit colour split most significant byte first, and the persist flag (R128). -/
def color (rgb : Int) (persist : Bool) : Shape :=
  .scalars
    [{ width := .one, value := rgb / 0x10000 }, { width := .one, value := rgb / 0x100 }, { width := .one, value := rgb },
      { width := .one, value := (boolByte persist).toNat }]

/-- Roll (R129). -/
def roll (speed heading state : Int) : Shape :=
  .scalars [{ width := .one, value := speed }, { width := .two, value := heading }, { width := .one, value := state }]

/-- Mode and power of two motors (R130; log entry 26). -/
def rawMotors (mode1 power1 mode2 power2 : Int) : Shape :=
  .scalars
    [{ width := .one, value := mode1 }, { width := .one, value := power1 }, { width := .one, value := mode2 },
      { width := .one, value := power2 }]

/-- The four leveling options (R123). -/
structure LevelingFlags where
  start : Bool
  rotate : Bool
  sleep : Bool
  controlSystem : Bool
  deriving DecidableEq, Repr

/-- The documented preset: start, rotate, awake, control system on (R123). It is a value for the caller to supply, and
the encoder never falls back to it (92_eei_decisions.md D22). -/
def LevelingFlags.preset : LevelingFlags :=
  { start := true, rotate := true, sleep := false, controlSystem := true }

/-- What the caller layer passes when its options may be absent: the explicit options, or else the preset it is
configured with (R123, D22). -/
def LevelingFlags.fromCaller (preset : LevelingFlags) (explicit : Option LevelingFlags) : LevelingFlags :=
  explicit.getD preset

/-- The flags in the listed order at bits 0 to 3 (R123; the one-to-one order is DEDUCED, log entry 25). -/
def LevelingFlags.inputs (f : LevelingFlags) : List BitInput :=
  [{ slot := { low := 0, bits := 1 }, value := f.start.toNat },
    { slot := { low := 1, bits := 1 }, value := f.rotate.toNat },
    { slot := { low := 2, bits := 1 }, value := f.sleep.toNat },
    { slot := { low := 3, bits := 1 }, value := f.controlSystem.toNat }]

/-- The flags byte. -/
def LevelingFlags.byte (f : LevelingFlags) : Byte := pack f.inputs

/-- Leveling: the flags the caller supplies, angle limit, timeout, settle time (R131, R123). -/
def leveling (flags : LevelingFlags) (angleLimit timeout settle : Int) : Shape :=
  .bitfield
    [.packed flags.inputs, .scalar { width := .one, value := angleLimit }, .scalar { width := .one, value := timeout },
      .scalar { width := .one, value := settle }]

/-- Data streaming, fields by their payload offset, with or without the second mask (R132, R125). -/
def streaming (at0 at2 at4 at8 : Int) (secondMask : Option Int) : Shape :=
  .conditional
    [{ width := .two, value := at0 }, { width := .two, value := at2 }, { width := .four, value := at4 },
      { width := .one, value := at8 }]
    .four secondMask

/-- Collision detection, in the listed order (R133; log entry 26). -/
def collision (method threshold1 threshold2 speed1 speed2 deadTime : Int) : Shape :=
  .scalars
    [{ width := .one, value := method }, { width := .one, value := threshold1 }, { width := .one, value := threshold2 },
      { width := .one, value := speed1 }, { width := .one, value := speed2 }, { width := .one, value := deadTime }]

/-- Locator: flags and three two-byte coordinates (R134). -/
def locator (flags c1 c2 c3 : Int) : Shape :=
  .scalars
    [{ width := .one, value := flags }, { width := .two, value := c1 }, { width := .two, value := c2 },
      { width := .two, value := c3 }]

/-- Config-block read: no payload (R135). -/
def configRead : Shape := .empty

/-- Config-block write of 32 bytes (R135). -/
def configWrite32 (block : Vector Byte 32) : Shape := .blob (.block32 block)

/-- Config-block write of 254 bytes (R135). -/
def configWrite254 (block : Vector Byte 254) : Shape := .blob (.block254 block)

/-- Macro upload, replace, append: cap 254 (R124, R136). -/
def macroUpload (bytes : List Byte) : Shape := .blob (.upload bytes)

/-- Interpreted-program fragment: an area selector and at most 253 bytes (R124, R136). -/
def fragmentUpload (area : Byte) (bytes : List Byte) : Shape := .blob (.fragment area bytes)

/-! ## The command table and the operations -/

/-- Command descriptor: `(deviceId, commandId, payloadLayout)`, static table data (R121). -/
structure Descriptor where
  did : Byte
  cid : Byte
  layout : PayloadLayout
  deriving DecidableEq, Repr

/-- The layout of an operation by its name: the four operations the source names (30_encoding.md R75), and for any other
the table the source does not give (log entry 29). -/
def layoutOf (name : String) : Option PayloadLayout :=
  if name = "setStabilization" then some layoutSetter1
  else if name = "setRGB" then some layoutColor
  else if name = "roll" then some layoutRoll
  else if name = "saveMacro" then some (.blob .upload)
  else Config.layoutOf name

/-- The table entry of a name (R121). A layout that could make more than 254 payload bytes is no entry: "frames violating
this are never constructed" (R124; 30_encoding.md R72). -/
def descriptorOf (name : String) : Option Descriptor :=
  match layoutOf name with
  | none => none
  | some layout =>
    if layout.maxSize ≤ 254 then some { did := Config.didOf name, cid := Config.cidOf name, layout := layout } else none

/-- A call of an operation: its name, its table entry, and arguments of the entry's layout (R120, R121). A name without an
entry, or arguments of another layout, make no call. -/
structure Operation where
  name : String
  descriptor : Descriptor
  shape : Shape
  inTable : descriptorOf name = some descriptor
  fits : shape.layout = descriptor.layout
  deriving DecidableEq, Repr

/-- What the envelope initializer returns: a sequence number and the resolved framing flag (R137). Both are free inputs
(93_implementation_defined.md U16). -/
structure Envelope where
  seq : Byte
  ack : Bool
  deriving DecidableEq, Repr

/-- The BUILD the encoder hands to the block: `build(did_of(op), cid_of(op), seq, payload, ack)` (30_encoding.md R75), or
the error and no request at all (R138). An operation under advisory is encoded like any other (R139). -/
def Operation.toInstr (op : Operation) (e : Envelope) : Except Error Instr :=
  match encodePayload op.shape with
  | .error err => .error err
  | .ok payload =>
    if e.ack then .ok (.buildAck op.descriptor.did op.descriptor.cid e.seq payload)
    else .ok (.buildNoack op.descriptor.did op.descriptor.cid e.seq payload)

/-- Whether the caller is warned that the device will not honour the operation (R139). -/
def Operation.warned (op : Operation) : Bool := Config.advisory op.name

/-! ## The pseudo-operations the document names (30_encoding.md R75) -/

/-- `setStabilization(on)` -/
def setStabilization (on : Bool) : Operation :=
  { name := "setStabilization"
    descriptor := { did := Config.didOf "setStabilization", cid := Config.cidOf "setStabilization", layout := layoutSetter1 }
    shape := setterBool on
    inTable := by simp [descriptorOf, layoutOf, layoutSetter1, PayloadLayout.maxSize, widthsSize, Width.bytes]
    fits := rfl }

/-- `setRGB(rgb, persist)` -/
def setRgb (rgb : Int) (persist : Bool) : Operation :=
  { name := "setRGB"
    descriptor := { did := Config.didOf "setRGB", cid := Config.cidOf "setRGB", layout := layoutColor }
    shape := color rgb persist
    inTable := by simp [descriptorOf, layoutOf, layoutColor, PayloadLayout.maxSize, widthsSize, Width.bytes]
    fits := rfl }

/-- `roll(speed, heading, state)` -/
def rollOperation (speed heading state : Int) : Operation :=
  { name := "roll"
    descriptor := { did := Config.didOf "roll", cid := Config.cidOf "roll", layout := layoutRoll }
    shape := roll speed heading state
    inTable := by simp [descriptorOf, layoutOf, layoutRoll, PayloadLayout.maxSize, widthsSize, Width.bytes]
    fits := rfl }

/-- `saveMacro(bytes)` -/
def saveMacro (bytes : List Byte) : Operation :=
  { name := "saveMacro"
    descriptor := { did := Config.didOf "saveMacro", cid := Config.cidOf "saveMacro", layout := .blob .upload }
    shape := macroUpload bytes
    inTable := by simp [descriptorOf, layoutOf, PayloadLayout.maxSize, BlobLayout.maxSize]
    fits := rfl }

end Sys2Proof.Machine.Upstream
end

