-- ==== Sys2Proof/Safety.lean ====
section
/-! DEFINITION. The terms claims are made in: the block's invariants (41_emit_phases.md R111), the duties of the
environment (70_reset_and_hazards.md R173 to R182), the good end of a run (R186), and what is dead in IDLE
(10_state.md R36). -/

namespace Sys2Proof.Machine

/-- `n` rising edges from a state, stopping at the first stop; the same run as `Host.Core.run` of the machine. -/
def runEdges : Nat → State → Host.Outcome State Fault Refusal
  | 0, s => .next s
  | n + 1, s =>
    match step s with
    | .next t => runEdges n t
    | .fault f => .fault f
    | .refused r => .refused r

/-- The covered bytes emitted so far in the frame in progress, when `p` are the payload bytes consumed (R111 (d)). -/
def State.summed (s : State) (p : List Byte) : List Byte :=
  match s.phase with
  | .idle => []
  | .mka => []
  | .mkb => []
  | .did => []
  | .cid => [s.didR]
  | .seq => [s.didR, s.cidR]
  | .len => [s.didR, s.cidR] ++ seqPart s.inst s.seqR
  | .pay => covered s.inst s.latched p
  | .chk => covered s.inst s.latched p
  | .fault => []

/-- The frame bytes emitted so far in the frame in progress (R111 (f)): the markers, then the covered bytes. -/
def State.emitted (s : State) (p : List Byte) : List Byte :=
  match s.phase with
  | .idle => []
  | .mka => []
  | .mkb => [s.inst.markerA]
  | .did => [s.inst.markerA, s.markerBByte]
  | .cid => [s.inst.markerA, s.markerBByte] ++ s.summed p
  | .seq => [s.inst.markerA, s.markerBByte] ++ s.summed p
  | .len => [s.inst.markerA, s.markerBByte] ++ s.summed p
  | .pay => [s.inst.markerA, s.markerBByte] ++ s.summed p
  | .chk => [s.inst.markerA, s.markerBByte] ++ s.summed p
  | .fault => []

/-- Where `rem` stands in each phase (R111 (c)): nothing consumed before PAY, something left in PAY, nothing left in CHK. -/
def State.remAgrees (s : State) (p : List Byte) : Prop :=
  p.length + s.rem.toNat = s.lenR.toNat ∧
    match s.phase with
    | .idle => False
    | .mka => p = []
    | .mkb => p = []
    | .did => p = []
    | .cid => p = []
    | .seq => p = [] ∧ s.inst.seqInFrame = true
    | .len => p = []
    | .pay => 1 ≤ s.rem.toNat
    | .chk => s.rem = 0
    | .fault => False

/-- A frame is in progress: OUT held `base` when its request was taken, and `p` are the payload bytes consumed since.
The conjuncts are R111 (b), (a) and (c), (d), (f). -/
def State.inFrame (s : State) (base : List OutByte) (p : List Byte) : Prop :=
  s.lenR ≠ 255 ∧ s.remAgrees p ∧ s.sum = sum8 (s.summed p) ∧ s.out = base ++ untagged (s.emitted p)

/-- The invariant of the block (R111): idle, faulted, or in a frame. -/
def State.inv (s : State) : Prop :=
  s.phase = .idle ∨ s.phase = .fault ∨ ∃ base p, s.inFrame base p

/-- Every register, every stream and the parameters agree: what a hold edge leaves alone (R112). -/
def State.sameBlock (s t : State) : Prop :=
  t.phase = s.phase ∧ t.didR = s.didR ∧ t.cidR = s.cidR ∧ t.seqR = s.seqR ∧ t.ackR = s.ackR ∧ t.lenR = s.lenR ∧
    t.rem = s.rem ∧ t.sum = s.sum ∧ t.out = s.out ∧ t.inst = s.inst

/-- The two states agree but for the data registers, and those agree too while a frame is in progress: nothing survives a
frame (10_state.md R36). -/
def State.sameButDead (s t : State) : Prop :=
  t.phase = s.phase ∧ t.req = s.req ∧ t.pay = s.pay ∧ t.out = s.out ∧ t.pins = s.pins ∧ t.env = s.env ∧
    t.inst = s.inst ∧
    (s.phase ≠ .idle → s.phase ≠ .fault →
      t.didR = s.didR ∧ t.cidR = s.cidR ∧ t.seqR = s.seqR ∧ t.ackR = s.ackR ∧ t.lenR = s.lenR ∧ t.rem = s.rem ∧
        t.sum = s.sum)

/-- No reset at this edge or at any edge the environment has planned. -/
def State.noReset (s : State) : Prop := s.pins.rst = false ∧ ∀ m ∈ s.env, m.pins.rst = false

/-- The producer empties PAY at no planned edge. -/
def State.noFlush (s : State) : Prop := ∀ m ∈ s.env, m.pays.flush = false

/-- Every request queued or planned keeps `len <= 254` (70_reset_and_hazards.md R182; 42_payload_producer.md R124). -/
def State.legalRequests (s : State) : Prop :=
  (∀ r ∈ s.req, r.len ≠ 255) ∧ ∀ m ∈ s.env, ∀ r ∈ m.reqs.add, r.len ≠ 255

/-- Everyone is willing, for ever: the best case of 70_reset_and_hazards.md R184. -/
def State.willing (s : State) : Prop := s.pins = Pins.willing ∧ s.env = []

/-- The payload bytes still owed to the frame in progress. -/
def State.owed (s : State) : Nat := if s.busy then s.rem.toNat else 0

/-- Payload bytes asked for, by the frame in progress, the queued requests and the planned ones
(70_reset_and_hazards.md R179). -/
def State.demand (s : State) : Nat :=
  s.owed + (s.req.map fun r => r.len.toNat).sum +
    (s.env.map fun m => (m.reqs.add.map fun r => r.len.toNat).sum).sum

/-- Payload bytes supplied, queued and planned (R179). -/
def State.supplied (s : State) : Nat := s.pay.length + (s.env.map fun m => m.pays.add.length).sum

/-- The payload bytes on PAY and those the planned moves add, in order, while the producer empties nothing (R185). -/
def State.payloadToCome (s : State) : List Byte := s.pay ++ s.env.flatMap fun m => m.pays.add

/-- The environment withdraws nothing: neither stream is emptied at a planned edge. -/
def State.noWithdrawal (s : State) : Prop := ∀ m ∈ s.env, m.reqs.flush = false ∧ m.pays.flush = false

/-- A run has ended well, OUT holding `expected` (70_reset_and_hazards.md R186). -/
def State.goodEnd (s : State) (expected : List OutByte) : Prop :=
  s.phase = .idle ∧ s.busy = false ∧ s.faultOut = false ∧ s.req = [] ∧ s.pay = [] ∧ s.out = expected

/-- The frames of a queue of requests whose payloads follow one another in `pay` (20_memory.md R42, R43). -/
def framesOf (p : Config.Params) : List Request → List Byte → List OutByte
  | [], _ => []
  | r :: rest, pay => frameOut p r (pay.take r.len.toNat) ++ framesOf p rest (pay.drop r.len.toNat)

/-- The edges a queue takes when nobody waits: `L + 7 + S` a request (70_reset_and_hazards.md R184). -/
def edgesOf (p : Config.Params) : List Request → Nat
  | [] => 0
  | r :: rest => r.len.toNat + 7 + seqCount p + edgesOf p rest

/-- The environment keeps its offers: what the ports show and the handshake did not take stays at the head of its stream
and stays offered (70_reset_and_hazards.md R176, R177). `t` is the state after the edge. -/
def State.offersKept (s t : State) : Prop :=
  (s.reqPort.isSome → s.reqHandshake = none → t.reqPort = s.reqPort) ∧
    (s.plPort.isSome → s.plHandshake = none → t.plPort = s.plPort)

end Sys2Proof.Machine
end

