-- ==== Sys2Proof/Certificates/Slice0/Obligations.lean ====
section
/-! DEFINITION. The statements about the model, for the provers. Each names the rule of spec/ it formalises. -/

open Sys2Proof Sys2Proof.Machine

/-! ## The step -/

/-- A STEP RUNS THE SELECTED OPERATION (41_emit_phases.md R100): what the decoder reads from the `rst` port or the phase
code runs, and after a next state the environment moves; a stop stays a stop. -/
def Obligations.StepRunsDecodedOperation : Prop :=
  ∀ (s : State) (i : Instr),
    decode (if s.pins.rst then .rst true else .phase s.phase.code) = .ok i →
      step s = (match exec i s with
        | .next t => .next t.clock
        | .fault f => .fault f
        | .refused r => .refused r)

/-- Words written out from the spec decode to what they stand for: R73's phase codes and the `rst` port, codes 10 to 15
selecting nothing; the request record of vector V5 and the illegal `len` of R72; and the frames of V5 for S = 0 and
S = 1, byte by byte. -/
def Obligations.OperationWordsDecode : Prop :=
  decode (.phase 0) = .ok .accept ∧ decode (.phase 1) = .ok .emitMka ∧ decode (.phase 2) = .ok .emitMkb ∧
    decode (.phase 3) = .ok .emitDid ∧ decode (.phase 4) = .ok .emitCid ∧ decode (.phase 5) = .ok .emitSeq ∧
    decode (.phase 6) = .ok .emitLen ∧ decode (.phase 7) = .ok .emitPay ∧ decode (.phase 8) = .ok .emitChk ∧
    decode (.phase 9) = .ok .faulted ∧ decode (.rst true) = .ok .reset ∧
    (∀ c : BitVec 4, 10 ≤ c.toNat → decode (.phase c) = .error (.noSuchPhase c.toNat)) ∧
    decode (.request { did := 0x02, cid := 0x30, seq := 0x07, ack := false, len := 4 } [0x20, 0x01, 0x68, 0x01]) =
      .ok (.buildNoack 0x02 0x30 0x07 [0x20, 0x01, 0x68, 0x01]) ∧
    (∀ (did cid seq : Byte) (ack : Bool) (payload : List Byte),
      decode (.request { did := did, cid := cid, seq := seq, ack := ack, len := 255 } payload) =
        .error .lenReserved) ∧
    readFrame Config.Params.specDefault [0xFF, 0xFE, 0x02, 0x30, 0x05, 0x20, 0x01, 0x68, 0x01, 0x3E] =
      .ok ({ ack := false, did := 0x02, cid := 0x30, seq := none, payload := [0x20, 0x01, 0x68, 0x01] }, []) ∧
    readFrame { Config.Params.specDefault with seqInFrame := true }
        [0xFF, 0xFE, 0x02, 0x30, 0x07, 0x05, 0x20, 0x01, 0x68, 0x01, 0x37] =
      .ok ({ ack := false, did := 0x02, cid := 0x30, seq := some 0x07, payload := [0x20, 0x01, 0x68, 0x01] }, [])

/-- Every edge has a next state, but for the SEQ phase of an instance without a sequence byte, which R106 says does not
exist: there the machine stops by name. The stop is the model's choice (log entry 11). -/
def Obligations.StepStopsOnlyInAbsentSeq : Prop :=
  ∀ s : State,
    (s.pins.rst = false ∧ s.phase = .seq ∧ s.inst.seqInFrame = false → step s = .fault .noStepSelected) ∧
      (¬(s.pins.rst = false ∧ s.phase = .seq ∧ s.inst.seqInFrame = false) → ∃ t, step s = .next t)

/-- The phase after an edge, for every phase and every input (R110's table, with the holds of R112). -/
def Obligations.PhaseTransitionTable : Prop :=
  ∀ s t : State, step s = .next t →
    t.phase =
      if s.pins.rst then .idle
      else
        match s.phase with
        | .idle =>
          match s.reqPort with
          | none => .idle
          | some r => if r.len = 255 then .fault else .mka
        | .mka => if s.pins.outReady then .mkb else .mka
        | .mkb => if s.pins.outReady then .did else .mkb
        | .did => if s.pins.outReady then .cid else .did
        | .cid => if s.pins.outReady then (if s.inst.seqInFrame then .seq else .len) else .cid
        | .seq => if s.pins.outReady then .len else .seq
        | .len => if s.pins.outReady then (if s.rem = 0 then .chk else .pay) else .len
        | .pay => if s.pins.outReady ∧ s.plPort.isSome then (if s.rem = 1 then .chk else .pay) else .pay
        | .chk => if s.pins.outReady then .idle else .chk
        | .fault => .fault

/-- A hold edge leaves every register, OUT and the parameters as they were, and nothing leaves REQ or PAY: the next
state is the old one with only the environment moved (R112; the SEQ phase is that of an instance that has it). -/
def Obligations.HoldEdgeChangesNothing : Prop :=
  ∀ s : State, s.pins.rst = false → (s.phase = .seq → s.inst.seqInFrame = true) →
    (s.phase = .idle ∧ s.reqPort = none ∨
      s.phase ≠ .idle ∧ s.phase ≠ .pay ∧ s.phase ≠ .fault ∧ s.pins.outReady = false ∨
      s.phase = .pay ∧ (s.plPort = none ∨ s.pins.outReady = false) ∨
      s.phase = .fault) →
    step s = .next s.clock ∧ s.sameBlock s.clock

/-- Each element moves by a handshake and by nothing else (20_memory.md R40, R48, R49): the operation an edge runs
appends to OUT exactly the byte handed over, tagged `out_last`, and removes from REQ and PAY exactly the element
handed over. -/
def Obligations.StreamsMoveByHandshakesOnly : Prop :=
  ∀ (s u : State) (i : Instr), s.fetch = .ok i → exec i s = .next u →
    u.out = s.out ++ (match s.outHandshake with
      | none => []
      | some b => [{ data := b, last := s.outLast }]) ∧
      u.req = (if s.reqHandshake.isSome then s.req.tail else s.req) ∧
      u.pay = (if s.plHandshake.isSome then s.pay.tail else s.pay)

/-- Priority at one edge (60_exceptions.md R158): with `rst = 1` RESET happens and no handshake completes, whatever the
phase and the other inputs; otherwise a request taken in IDLE either faults with nothing latched or is latched, never
both. -/
def Obligations.ResetThenFaultThenLatch : Prop :=
  ∀ s : State,
    (s.pins.rst = true →
      s.reqHandshake = none ∧ s.plHandshake = none ∧ s.outHandshake = none ∧
        ∃ t, step s = .next t ∧ t.phase = .idle ∧ t.out = s.out) ∧
      ∀ r : Request, s.reqHandshake = some r →
        ∃ t, step s = .next t ∧
          ((t.phase = .fault ∧ t.latched = s.latched ∧ t.rem = s.rem ∧ t.sum = s.sum ∧ r.len = 255) ∨
            (t.phase = .mka ∧ t.latched = r ∧ t.rem = r.len ∧ t.sum = 0 ∧ r.len ≠ 255))

/-! ## The operations, one by one -/

/-- ACCEPT (R101): with a request offered in IDLE, the record is taken; it is latched and the frame begins, or, when
its `len` is 255, LenFault is entered and nothing else is written. With no request offered nothing changes (R112). In
another phase or in reset nothing changes either, which is the model's choice (log entry 10). -/
def Obligations.AcceptTakesTheRequest : Prop :=
  ∀ s : State,
    (∀ (r : Request) (rest : List Request),
      s.phase = .idle → s.pins.rst = false → s.pins.reqValid = true → s.req = r :: rest →
        exec .accept s = .next
          (if r.len = 255 then { s with req := rest, phase := .fault }
          else
            { s with
              req := rest
              didR := r.did
              cidR := r.cid
              seqR := r.seq
              ackR := r.ack
              lenR := r.len
              rem := r.len
              sum := 0
              phase := .mka })) ∧
      (s.phase ≠ .idle ∨ s.pins.rst = true ∨ s.pins.reqValid = false ∨ s.req = [] → exec .accept s = .next s)

/-- EMIT_MKA and EMIT_MKB (R102, R103): the marker is written with `last = 0`, and `sum` is not changed. With the sink
not ready nothing changes (R112); out of its phase or in reset nothing changes either, which is the model's choice
(log entry 10). -/
def Obligations.EmitMarkersWriteTheMarkers : Prop :=
  ∀ s : State,
    (s.phase = .mka → s.pins.rst = false → s.pins.outReady = true →
      exec .emitMka s = .next
        { s with out := s.out ++ [{ data := s.inst.markerA, last := false }], phase := .mkb }) ∧
      (s.phase = .mkb → s.pins.rst = false → s.pins.outReady = true →
        exec .emitMkb s = .next
          { s with
            out := s.out ++
              [{ data := if s.ackR then s.inst.markerBAck else s.inst.markerBNoack, last := false }]
            phase := .did }) ∧
      (s.phase ≠ .mka ∨ s.pins.rst = true ∨ s.pins.outReady = false → exec .emitMka s = .next s) ∧
      (s.phase ≠ .mkb ∨ s.pins.rst = true ∨ s.pins.outReady = false → exec .emitMkb s = .next s)

/-- EMIT_DID and EMIT_CID (R104, R105): the identifier is written with `last = 0` and added to `sum` modulo 256; after
the command-id comes SEQ when S = 1 and LEN when S = 0. With the sink not ready nothing changes (R112); out of its
phase or in reset nothing changes either, which is the model's choice (log entry 10). -/
def Obligations.EmitIdentifiersWriteAndSum : Prop :=
  ∀ s : State,
    (s.phase = .did → s.pins.rst = false → s.pins.outReady = true →
      exec .emitDid s = .next
        { s with out := s.out ++ [{ data := s.didR, last := false }], sum := s.sum + s.didR, phase := .cid }) ∧
      (s.phase = .cid → s.pins.rst = false → s.pins.outReady = true →
        exec .emitCid s = .next
          { s with
            out := s.out ++ [{ data := s.cidR, last := false }]
            sum := s.sum + s.cidR
            phase := if s.inst.seqInFrame then .seq else .len }) ∧
      (s.phase ≠ .did ∨ s.pins.rst = true ∨ s.pins.outReady = false → exec .emitDid s = .next s) ∧
      (s.phase ≠ .cid ∨ s.pins.rst = true ∨ s.pins.outReady = false → exec .emitCid s = .next s)

/-- EMIT_SEQ (R106). When S = 1 the sequence byte is written with `last = 0` and added to `sum`. With the sink not
ready nothing changes (R112); out of its phase or in reset nothing changes either, which is the model's choice (log
entry 10). When S = 0 no edge enters the phase SEQ. -/
def Obligations.EmitSeqWritesAndSums : Prop :=
  ∀ s : State,
    (s.inst.seqInFrame = true → s.phase = .seq → s.pins.rst = false → s.pins.outReady = true →
      exec .emitSeq s = .next
        { s with out := s.out ++ [{ data := s.seqR, last := false }], sum := s.sum + s.seqR, phase := .len }) ∧
      (s.inst.seqInFrame = true → (s.phase ≠ .seq ∨ s.pins.rst = true ∨ s.pins.outReady = false) →
        exec .emitSeq s = .next s) ∧
      ∀ t : State, s.inst.seqInFrame = false → s.phase ≠ .seq → step s = .next t → t.phase ≠ .seq

/-- EMIT_SEQ when S = 0 stops by name: R106 says the step does not exist. The stop is the model's choice (log entry
11). -/
def Obligations.EmitSeqAbsentWithoutSequenceByte : Prop :=
  ∀ s : State, s.inst.seqInFrame = false → exec .emitSeq s = .fault .noStepSelected

/-- EMIT_LEN (R107), `len_r <= 254`: L + 1 is written with `last = 0` and added to `sum`; CHK follows when `rem = 0`,
PAY otherwise. With the sink not ready nothing changes (R112); out of its phase or in reset nothing changes either,
which is the model's choice (log entry 10). -/
def Obligations.EmitLenWritesLengthPlusOne : Prop :=
  ∀ s : State,
    (s.phase = .len → s.lenR ≠ 255 → s.pins.rst = false → s.pins.outReady = true →
      exec .emitLen s = .next
        { s with
          out := s.out ++ [{ data := BitVec.ofNat 8 (s.lenR.toNat + 1), last := false }]
          sum := s.sum + BitVec.ofNat 8 (s.lenR.toNat + 1)
          phase := if s.rem = 0 then .chk else .pay }) ∧
      (s.phase ≠ .len ∨ s.pins.rst = true ∨ s.pins.outReady = false → exec .emitLen s = .next s)

/-- EMIT_PAY (R108), `rem >= 1`: the offered byte leaves PAY and enters OUT unchanged with `last = 0`, is added to
`sum`, `rem` counts down, and CHK follows the last one. With no byte offered or with the sink not ready nothing
changes (R112, R155); out of its phase or in reset nothing changes either, which is the model's choice (log entry 10).
-/
def Obligations.EmitPayCopiesOneByte : Prop :=
  ∀ s : State,
    (∀ (b : Byte) (rest : List Byte),
      s.phase = .pay → s.rem ≠ 0 → s.pins.rst = false → s.pins.outReady = true → s.pins.plValid = true →
        s.pay = b :: rest →
          exec .emitPay s = .next
            { s with
              pay := rest
              out := s.out ++ [{ data := b, last := false }]
              sum := s.sum + b
              rem := BitVec.ofNat 8 (s.rem.toNat - 1)
              phase := if s.rem = 1 then .chk else .pay }) ∧
      (s.phase ≠ .pay ∨ s.pins.rst = true ∨ s.pins.outReady = false ∨ s.pins.plValid = false ∨ s.pay = [] →
        exec .emitPay s = .next s)

/-- The two corners the rules say are never reached, `inc8` of 255 and `rem - 1` at 0 (R113 (b), (c)): the step
completes there too, with one byte left open (a free value, log entries 12 and 13) and everything else as R107 and
R108 say. -/
def Obligations.OpenValuesStayInTheirPlace : Prop :=
  ∀ s : State,
    (s.phase = .len → s.lenR = 255 → s.pins.rst = false → s.pins.outReady = true →
      ∃ v : Byte, exec .emitLen s = .next
        { s with
          out := s.out ++ [{ data := v, last := false }]
          sum := s.sum + v
          phase := if s.rem = 0 then .chk else .pay }) ∧
      ∀ (b : Byte) (rest : List Byte),
        s.phase = .pay → s.rem = 0 → s.pins.rst = false → s.pins.outReady = true → s.pins.plValid = true →
          s.pay = b :: rest →
            ∃ v : Byte, exec .emitPay s = .next
              { s with
                pay := rest
                out := s.out ++ [{ data := b, last := false }]
                sum := s.sum + b
                rem := v
                phase := .pay }

/-- EMIT_CHK (R109): `255 - sum` is written with `last = 1`, every data register keeps its value, and the block is
idle and ready for the next request. With the sink not ready nothing changes (R112); out of its phase or in reset
nothing changes either, which is the model's choice (log entry 10). -/
def Obligations.EmitChkWritesTheComplement : Prop :=
  ∀ s : State,
    (s.phase = .chk → s.pins.rst = false → s.pins.outReady = true →
      ∃ t, exec .emitChk s = .next t ∧
        t = { s with out := s.out ++ [{ data := BitVec.ofNat 8 (255 - s.sum.toNat), last := true }], phase := .idle } ∧
        t.reqReady = true) ∧
      (s.phase ≠ .chk ∨ s.pins.rst = true ∨ s.pins.outReady = false → exec .emitChk s = .next s)

/-- FAULTED (R153): the outputs of a faulted block; no register changes at any edge with `rst = 0`; requests are not
taken and not lost; and a faulted state is no good end of a run. -/
def Obligations.FaultedDoesNothing : Prop :=
  ∀ s : State, s.phase = .fault →
    exec .faulted s = .next s ∧ (s.pins.rst = false → step s = .next s.clock) ∧ s.reqHandshake = none ∧
      (∀ expected, ¬ s.goodEnd expected) ∧
      s.outputs =
        { reqReady := false, plReady := false, outValid := false, outData := none, outLast := false, busy := false,
          fault := true }

/-- RESET (R171): every register takes its reset value, whatever the phase and the inputs; no handshake completes; the
streams, the levels and the parameters are untouched; the outputs are those of IDLE (R37); and without it no edge leaves
FAULT. -/
def Obligations.ResetClearsEveryRegister : Prop :=
  ∀ s : State,
    (s.pins.rst = true →
      ∃ t, exec .reset s = .next t ∧ step s = .next t.clock ∧
        t = { s with
          phase := .idle
          didR := 0
          cidR := 0
          seqR := 0
          ackR := false
          lenR := 0
          rem := 0
          sum := 0 } ∧
        s.reqHandshake = none ∧ s.plHandshake = none ∧ s.outHandshake = none ∧
        t.outputs =
          { reqReady := true, plReady := false, outValid := false, outData := none, outLast := false, busy := false,
            fault := false }) ∧
      ∀ t : State, s.pins.rst = false → s.phase = .fault → step s = .next t → t.phase = .fault

/-- BUILD, both forms, on an idle block with empty streams (R81): the frame enters OUT whole, `last` on its checksum
only; the registers are as the checksum step leaves them. The operation stands for all its steps (log entry 7). -/
def Obligations.BuildWritesItsFrame : Prop :=
  ∀ (s : State) (did cid seq : Byte) (payload : List Byte),
    s.phase = .idle → s.pins.rst = false → s.req = [] → s.pay = [] → payload.length ≤ 254 →
      let lb : Byte := BitVec.ofNat 8 (payload.length + 1)
      let cov : List Byte := [did, cid] ++ (if s.inst.seqInFrame then [seq] else []) ++ [lb] ++ payload
      let done (ack : Bool) (mb : Byte) : State :=
        { s with
          out := s.out ++ ([s.inst.markerA, mb] ++ cov).map (fun b => { data := b, last := false }) ++
            [{ data := not8 (sum8 cov), last := true }]
          didR := did
          cidR := cid
          seqR := seq
          ackR := ack
          lenR := BitVec.ofNat 8 payload.length
          rem := 0
          sum := sum8 cov }
      exec (.buildAck did cid seq payload) s = .next (done true s.inst.markerBAck) ∧
        exec (.buildNoack did cid seq payload) s = .next (done false s.inst.markerBNoack)

/-- BUILD takes the bytes at the head of PAY, whoever left them there (R42, R155): on an idle block with nothing
queued but `stale` bytes, the frame's payload is the first L bytes of `stale ++ payload`, and the rest stays in PAY.
That exec of BUILD is one transition is log entry 7, and that it queues its payload behind the stale bytes at the call
is log entry 8. -/
def Obligations.SurplusBytesGoToTheNextRequest : Prop :=
  ∀ (s : State) (ack : Bool) (did cid seq : Byte) (payload : List Byte),
    s.phase = .idle → s.pins.rst = false → s.req = [] → payload.length ≤ 254 →
      ∃ t, exec (if ack then .buildAck did cid seq payload else .buildNoack did cid seq payload) s = .next t ∧
        t.out = s.out ++ frameOut s.inst (requestOf did cid seq ack payload) ((s.pay ++ payload).take payload.length) ∧
        t.pay = (s.pay ++ payload).drop payload.length ∧ t.pay.length = s.pay.length ∧ t.req = []

/-- BUILD with 255 payload bytes (R85): LenFault; no byte is emitted, no payload byte is consumed, and no register but
the phase is written. That exec of BUILD enters the fault in one transition is log entry 7, and that it queues the 255
bytes on PAY at the call is log entry 8. -/
def Obligations.BuildOf255BytesFaults : Prop :=
  ∀ (s : State) (did cid seq : Byte) (payload : List Byte),
    s.phase = .idle → s.pins.rst = false → s.req = [] → payload.length = 255 →
      exec (.buildAck did cid seq payload) s = .next { s with phase := .fault, pay := s.pay ++ payload } ∧
        exec (.buildNoack did cid seq payload) s = .next { s with phase := .fault, pay := s.pay ++ payload }

/-- BUILD on a block that is busy, faulted, in reset or has older requests waiting (R90, R153): the request waits on
REQ with its payload on PAY, not lost, and nothing else changes. That the whole payload is queued at the call is log
entry 8. -/
def Obligations.BuildWaitsItsTurn : Prop :=
  ∀ (s : State) (did cid seq : Byte) (payload : List Byte), payload.length ≤ 255 →
    (s.phase ≠ .idle ∨ s.pins.rst = true ∨ s.req ≠ []) →
      let waiting (ack : Bool) : State :=
        { s with
          req := s.req ++
            [{ did := did, cid := cid, seq := seq, ack := ack, len := BitVec.ofNat 8 payload.length }]
          pay := s.pay ++ payload }
      exec (.buildAck did cid seq payload) s = .next (waiting true) ∧
        exec (.buildNoack did cid seq payload) s = .next (waiting false)

/-- A payload above 255 bytes cannot be expressed on the 8-bit `req_len` port (R72 (a)): no frame, a refusal by name.
That it is a refusal is the model's choice (log entry 9). -/
def Obligations.BuildBeyond255BytesRefused : Prop :=
  ∀ (s : State) (did cid seq : Byte) (payload : List Byte), 255 < payload.length →
    exec (.buildAck did cid seq payload) s = .refused (.lengthNotExpressible payload.length) ∧
      exec (.buildNoack did cid seq payload) s = .refused (.lengthNotExpressible payload.length)

/-! ## What operations leave alone -/

/-- The frame of the EMIT steps (R102 to R109): the latches, REQ, the levels, the environment and the parameters never
change; `sum` changes only in the five summing steps, `rem` and PAY only in EMIT_PAY; what OUT holds stays. -/
def Obligations.EmitStepsFrame : Prop :=
  ∀ (s t : State) (i : Instr),
    i ∈ [.emitMka, .emitMkb, .emitDid, .emitCid, .emitSeq, .emitLen, .emitPay, .emitChk] → exec i s = .next t →
      t.latched = s.latched ∧ t.req = s.req ∧ t.pins = s.pins ∧ t.env = s.env ∧ t.inst = s.inst ∧
        s.out <+: t.out ∧ t.out.length ≤ s.out.length + 1 ∧
        (i ∈ [.emitMka, .emitMkb, .emitChk] → t.sum = s.sum) ∧
        (i ≠ .emitPay → t.rem = s.rem ∧ t.pay = s.pay)

/-- The frame of ACCEPT, BUILD, FAULTED and RESET: levels, environment and parameters never change; ACCEPT writes
nothing to OUT, takes nothing from PAY and at most the head from REQ; RESET and FAULTED leave all three streams. BUILD
only adds to OUT. Where the block takes it next, REQ stays empty and PAY keeps `s.pay ++ payload` but for its first L
bytes (all of it when L = 255, which faults); elsewhere OUT is unchanged, the record stands behind the older ones, in
order, and the payload behind the older bytes. That BUILD is one transition which leaves the levels and the
environment alone is log entry 7, and that it queues its record and payload at the call is log entry 8. -/
def Obligations.RequestAndSystemFrame : Prop :=
  ∀ (s t : State) (i : Instr), exec i s = .next t →
    (i ∈ [.accept, .faulted, .reset] → t.out = s.out ∧ t.pay = s.pay) ∧
      (i = .accept → t.req = s.req ∨ t.req = s.req.tail) ∧
      (i ∈ [.faulted, .reset] → t.req = s.req) ∧
      (∀ (ack : Bool) (did cid seq : Byte) (payload : List Byte),
        i = (if ack then .buildAck did cid seq payload else .buildNoack did cid seq payload) →
          s.out <+: t.out ∧
            if s.phase = .idle ∧ s.pins.rst = false ∧ s.req = [] then
              t.req = [] ∧ t.pay = (s.pay ++ payload).drop (if payload.length = 255 then 0 else payload.length)
            else
              t.out = s.out ∧ t.pay = s.pay ++ payload ∧
                t.req = s.req ++
                  [{ did := did, cid := cid, seq := seq, ack := ack, len := BitVec.ofNat 8 payload.length }]) ∧
      t.pins = s.pins ∧ t.env = s.env ∧ t.inst = s.inst

/-- The parameters are fixed when the block is built and no step changes them (00_scope.md R5, R6). That they are read
from the state is the model's choice (log entry 1). -/
def Obligations.ParametersNeverChange : Prop :=
  ∀ (n : Nat) (s t : State), runEdges n s = .next t → t.inst = s.inst

/-- The five latches are written only by ACCEPT, from the record it takes, and by RESET (10_state.md R27 to R31). -/
def Obligations.LatchesWrittenByAcceptAndResetOnly : Prop :=
  ∀ s t : State, step s = .next t →
    (s.pins.rst = false → s.reqHandshake = none → t.latched = s.latched) ∧
      (∀ r, s.reqHandshake = some r → t.latched = if r.len = 255 then s.latched else r) ∧
      (s.pins.rst = true → t.latched = { did := 0, cid := 0, seq := 0, ack := false, len := 0 })

/-! ## The outputs -/

/-- The outputs of each phase (10_state.md R38); `none` is the table's x. In PAY the payload handshake and the output
handshake complete on the same edge or not at all. -/
def Obligations.OutputsPerPhase : Prop :=
  ∀ s : State, s.lenR ≠ 255 →
    let emitting (b : Byte) (last : Bool) : Outputs :=
      { reqReady := false, plReady := false, outValid := true, outData := some b, outLast := last, busy := true,
        fault := false }
    let silent (ready fault : Bool) : Outputs :=
      { reqReady := ready, plReady := false, outValid := false, outData := none, outLast := false, busy := false,
        fault := fault }
    (s.phase = .pay → s.plHandshake = s.outHandshake) ∧ s.outputs =
      match s.phase with
      | .idle => silent true false
      | .mka => emitting s.inst.markerA false
      | .mkb => emitting (if s.ackR then s.inst.markerBAck else s.inst.markerBNoack) false
      | .did => emitting s.didR false
      | .cid => emitting s.cidR false
      | .seq => emitting s.seqR false
      | .len => emitting (s.lenR + 1) false
      | .pay =>
        { reqReady := false, plReady := s.pins.outReady, outValid := s.plPort.isSome, outData := s.plPort,
          outLast := false, busy := true, fault := false }
      | .chk => emitting (255 - s.sum) true
      | .fault => silent false true

/-- An offered byte stays offered and stays the same until it is taken (70_reset_and_hazards.md R178, which the spec
marks as derived), in PAY if the environment keeps its offers (R177). -/
def Obligations.OfferedByteIsStable : Prop :=
  ∀ s t : State, step s = .next t → s.pins.rst = false → s.outValid = true → s.outHandshake = none →
    (s.phase = .pay → s.offersKept t) →
      t.outValid = true ∧ t.outData = s.outData ∧ t.outLast = s.outLast ∧ t.phase = s.phase

/-! ## The frame as a value -/

/-- Length (30_encoding.md R70, 40_build.md R82): `L + 6 + S` bytes, the length byte at `4 + S` is `L + 1`, and it
counts the bytes after it. -/
def Obligations.FrameLengthInvariant : Prop :=
  ∀ (p : Config.Params) (r : Request) (payload : List Byte),
    payload.length ≤ 254 → r.len = BitVec.ofNat 8 payload.length →
      (frame p r payload).length = payload.length + 6 + seqCount p ∧
        (frame p r payload)[4 + seqCount p]? = some (BitVec.ofNat 8 (payload.length + 1)) ∧
        payload.length + 1 = (frame p r payload).length - 5 - seqCount p

/-- Checksum (40_build.md R83): the last byte is the complement of the modulo-256 sum of every byte after the two
markers and before it. -/
def Obligations.FrameChecksumInvariant : Prop :=
  ∀ (p : Config.Params) (r : Request) (payload : List Byte),
    (frame p r payload).getLast? = some (not8 (sum8 (((frame p r payload).drop 2).dropLast))) ∧
      ∀ bytes : List Byte, (sum8 bytes).toNat = (bytes.map fun b => b.toNat).sum % 256

/-- The consequences (a) to (d) that 30_encoding.md section 2 infers from the checksum rule R68 (it marks R76 as
derived). -/
def Obligations.ChecksumConsequences : Prop :=
  ∀ (p : Config.Params) (r : Request) (payload : List Byte),
    add8 (sum8 (covered p r payload)) (checksum p r payload) = 255 ∧
      sum8 ((frame p r payload).drop 2) = 255 ∧
      (checksum p r payload = 255 ↔ sum8 (covered p r payload) = 0) ∧
      (checksum p r payload = 0 ↔ sum8 (covered p r payload) = 255) ∧
      (∀ (before after : List Byte) (b d : Byte),
        not8 (sum8 (before ++ [add8 b d] ++ after)) = not8 (sum8 (before ++ [b] ++ after)) - d) ∧
      (∀ ack : Bool, checksum p { r with ack := ack } payload = checksum p r payload) ∧
      ∀ other : List Byte, other.Perm payload → checksum p r other = checksum p r payload

/-- The offset of every field (20_memory.md R50), for both values of S. -/
def Obligations.FrameOffsetMap : Prop :=
  ∀ (p : Config.Params) (r : Request) (payload : List Byte), r.len ≠ 255 → payload.length = r.len.toNat →
    let f := frame p r payload
    let o := seqCount p
    f[0]? = some p.markerA ∧ f[1]? = some (if r.ack then p.markerBAck else p.markerBNoack) ∧ f[2]? = some r.did ∧
      f[3]? = some r.cid ∧ (p.seqInFrame = true → f[4]? = some r.seq) ∧
      f[4 + o]? = some (BitVec.ofNat 8 (r.len.toNat + 1)) ∧
      (∀ i, i < payload.length → f[5 + o + i]? = payload[i]?) ∧
      f[5 + o + payload.length]? = some (checksum p r payload) ∧ f.length = payload.length + 6 + o

/-- The sequence number (40_build.md R87, and R86, which the spec marks as derived from R81): with S = 0 no byte
depends on it; with S = 1 two requests that differ only in it give frames that differ at offset 4 and in the checksum,
and nowhere else. -/
def Obligations.SequenceNumberReachesTwoBytes : Prop :=
  ∀ (p : Config.Params) (r : Request) (q : Byte) (payload : List Byte),
    let f := frame p r payload
    let g := frame p { r with seq := q } payload
    (p.seqInFrame = false → f = g) ∧
      (p.seqInFrame = true →
        (∀ i, i ≠ 4 → i ≠ 6 + payload.length → f[i]? = g[i]?) ∧
          (r.seq ≠ q → f[4]? ≠ g[4]? ∧ f[6 + payload.length]? ≠ g[6 + payload.length]?))

/-- The two forms differ in frame byte 1 and in nothing else (40_build.md R81). -/
def Obligations.AcknowledgeFlagReachesByteOneOnly : Prop :=
  ∀ (p : Config.Params) (r : Request) (payload : List Byte), p.ok = true →
    let f := frame p { r with ack := true } payload
    let g := frame p { r with ack := false } payload
    f[1]? ≠ g[1]? ∧ ∀ i, i ≠ 1 → f[i]? = g[i]?

/-! ## Encodings -/

/-- A frame read back gives every field of the request and the payload, and leaves what follows it (30_encoding.md R60
to R70): for every instance with distinct markers, every request and every legal payload. -/
def Obligations.ReadFrameInvertsFrame : Prop :=
  ∀ (p : Config.Params) (r : Request) (payload after : List Byte),
    p.ok = true → r.len ≠ 255 → payload.length = r.len.toNat →
      readFrame p (frame p r payload ++ after) = .ok
        ({ ack := r.ack, did := r.did, cid := r.cid, seq := if p.seqInFrame then some r.seq else none,
           payload := payload }, after)

/-- Only frames are read: whatever the reader accepts is the frame of the fields it answers, followed by the rest. -/
def Obligations.ReadFrameAcceptsFramesOnly : Prop :=
  ∀ (p : Config.Params) (bytes after : List Byte) (f : FrameFields), readFrame p bytes = .ok (f, after) →
    f.payload.length ≤ 254 ∧ (f.seq.isSome ↔ p.seqInFrame = true) ∧
      bytes = frame p (requestOf f.did f.cid (f.seq.getD 0) f.ack f.payload) f.payload ++ after

/-- Decoding the encoding of a well-formed operation gives it back, with every operand at every value (30_encoding.md
R71, R73). -/
def Obligations.DecodeInvertsEncode : Prop :=
  ∀ (p : Config.Params) (i : Instr), WellFormed p i = true → decode (encode i) = .ok i

/-- What the decoder accepts is the encoding of what it answers, and a BUILD it answers has a legal payload
(30_encoding.md R71, R72). -/
def Obligations.EncodeInvertsDecode : Prop :=
  ∀ (c : Code) (i : Instr), decode c = .ok i →
    encode i = c ∧ ∀ p : Config.Params, (i = .emitSeq → p.seqInFrame = true) → WellFormed p i = true

/-! ## Invariants and refinement -/

/-- The invariant of 41_emit_phases.md section 3 (R111, which the spec marks as derived from R101 to R110) holds at
reset. -/
def Obligations.ResetMeetsTheInvariant : Prop := State.reset.inv

/-- The invariants (a) to (f) of 41_emit_phases.md section 3 (R111, which the spec marks as derived): an edge with
`rst = 1` establishes them from any state, and every edge keeps them, whatever the environment does. -/
def Obligations.EveryStepKeepsTheInvariant : Prop :=
  ∀ s t : State, step s = .next t → (s.pins.rst = true → t.inv) ∧ (s.inv → t.inv)

/-- ACCEPT of a legal request starts a frame (R101, in the terms of the derived R111): nothing emitted, nothing
consumed, the request latched. -/
def Obligations.AcceptStartsAFrame : Prop :=
  ∀ (s : State) (r : Request), s.reqHandshake = some r → r.len ≠ 255 →
    ∃ t, step s = .next t ∧ t.phase = .mka ∧ t.latched = r ∧ t.inst = s.inst ∧ t.inFrame s.out []

/-- One edge of a frame in progress (R101 to R110; the spec's own inference from them is R88, R111): it goes on with
the payload byte just consumed, or, at the checksum handshake, it ends in IDLE with exactly its frame added to OUT. -/
def Obligations.FrameAdvancesByOneEdge : Prop :=
  ∀ (s : State) (base : List OutByte) (p : List Byte), s.inFrame base p → s.pins.rst = false →
    ∃ t, step s = .next t ∧ t.latched = s.latched ∧ t.inst = s.inst ∧
      if s.phase = .chk ∧ s.pins.outReady = true then
        t.phase = .idle ∧ p.length = s.lenR.toNat ∧ t.out = base ++ frameOut s.inst s.latched p
      else t.inFrame base (p ++ s.plHandshake.toList)

/-- REFINEMENT under any pacing (40_build.md R88 and R86, which the spec marks as derived): a legal request is taken
with its payload queued, and the environment may then do anything but reset the block or empty PAY. At every later
edge either the frame is in progress with OUT holding a front part of it, or at some edge before it was complete: OUT
held `BUILD` of the request. -/
def Obligations.StepsPerformBuildAtAnyPace : Prop :=
  ∀ (s : State) (r : Request) (rest : List Request),
    s.phase = .idle → s.pins.reqValid = true → s.req = r :: rest → r.len ≠ 255 → r.len.toNat ≤ s.pay.length →
      s.noReset → s.noFlush →
        ∀ n : Nat, ∃ t, runEdges (n + 1) s = .next t ∧
          ((∃ k, k ≤ r.len.toNat ∧ t.latched = r ∧ t.inst = s.inst ∧ t.inFrame s.out (s.pay.take k)) ∨
            ∃ m u, m ≤ n ∧ runEdges (m + 1) s = .next u ∧ u.phase = .idle ∧
              u.out = s.out ++ frameOut s.inst r (s.pay.take r.len.toNat))

/-- Fairness (70_reset_and_hazards.md R185): a frame in progress whose environment neither resets the block nor
empties PAY, supplies the bytes still owed, on PAY already or by any of its planned moves, and after what it has
planned leaves everyone willing, reaches IDLE with exactly its frame added to OUT. It takes at most one edge for each
planned move and one for each frame byte. -/
def Obligations.FairFrameCompletes : Prop :=
  ∀ (s : State) (base : List OutByte) (p : List Byte),
    s.inFrame base p → s.noReset → s.noFlush → s.rem.toNat ≤ s.payloadToCome.length →
      ((s.env.getLast?.map EnvMove.pins).getD s.pins = Pins.willing) →
        ∃ n t, n ≤ s.env.length + s.lenR.toNat + 6 + seqCount s.inst ∧ runEdges n s = .next t ∧ t.phase = .idle ∧
          t.out = base ++ frameOut s.inst s.latched (p ++ s.payloadToCome.take s.rem.toNat)

/-- The best case (40_build.md R88, R89, 70_reset_and_hazards.md R184, which the spec marks as derived): when nobody
waits, one request takes `L + 7 + S` edges, and the state after them is known whole. -/
def Obligations.BestCaseFrameRun : Prop :=
  ∀ (s : State) (r : Request) (rest : List Request),
    s.phase = .idle → s.willing → s.req = r :: rest → r.len ≠ 255 → r.len.toNat ≤ s.pay.length →
      runEdges (r.len.toNat + 7 + seqCount s.inst) s = .next
        { s with
          req := rest
          pay := s.pay.drop r.len.toNat
          out := s.out ++ frameOut s.inst r (s.pay.take r.len.toNat)
          didR := r.did
          cidR := r.cid
          seqR := r.seq
          ackR := r.ack
          lenR := r.len
          rem := 0
          sum := sum8 (covered s.inst r (s.pay.take r.len.toNat)) }

/-- BUILD as one operation equals its steps (40_build.md R88, which the spec marks as derived; log entry 7): on an
idle block with nothing queued and a willing environment, running the steps of the request gives the state BUILD
gives. -/
def Obligations.BuildEqualsItsSteps : Prop :=
  ∀ (s : State) (did cid seq : Byte) (payload : List Byte),
    s.phase = .idle → s.willing → s.req = [] → payload.length ≤ 254 →
      exec (.buildAck did cid seq payload) s =
          runEdges (payload.length + 7 + seqCount s.inst)
            (s.offer (requestOf did cid seq true payload) payload) ∧
        exec (.buildNoack did cid seq payload) s =
          runEdges (payload.length + 7 + seqCount s.inst)
            (s.offer (requestOf did cid seq false payload) payload)

/-- A queue of legal requests with exactly their payloads ends well (70_reset_and_hazards.md R186, 20_memory.md R43,
R51): OUT gains the frames in request order with nothing between them, and REQ and PAY are empty. -/
def Obligations.QueueEndsWellWithItsFrames : Prop :=
  ∀ s : State, s.phase = .idle → s.willing → (∀ r ∈ s.req, r.len ≠ 255) →
    s.pay.length = (s.req.map fun r => r.len.toNat).sum →
      ∃ t, runEdges (edgesOf s.inst s.req) s = .next t ∧
        t.goodEnd (s.out ++ framesOf s.inst s.req s.pay)

/-- Nothing survives a frame (10_state.md R36, 40_build.md R86, which the spec marks as derived): two states that
differ only in data registers dead in IDLE or FAULT show the same outputs and stay such a pair at every edge, so OUT
never tells them apart. -/
def Obligations.NothingSurvivesAFrame : Prop :=
  ∀ s t : State, s.sameButDead t →
    t.outputs = s.outputs ∧
      ∀ s' : State, step s = .next s' → ∃ t', step t = .next t' ∧ s'.sameButDead t'

/-! ## The fault, the holds and the environment -/

/-- LenFault is raised by ACCEPT and only by it, exactly when the record taken has `len = 255` (60_exceptions.md
R151): an edge enters FAULT in no other way. -/
def Obligations.LenFaultExactlyOnLen255 : Prop :=
  ∀ s t : State, s.phase ≠ .fault → step s = .next t →
    (t.phase = .fault ↔
      s.pins.rst = false ∧ s.phase = .idle ∧ ∃ r, s.reqPort = some r ∧ r.len = 255)

/-- The entry of the fault (60_exceptions.md R152; its derived consequence R163): at the faulting edge only the phase
is written, the record is gone, no byte enters OUT, and no byte leaves PAY. -/
def Obligations.LenFaultIsPrecise : Prop :=
  ∀ (s : State) (r : Request), s.reqHandshake = some r → r.len = 255 →
    ∃ u, exec .accept s = .next u ∧ step s = .next u.clock ∧ s.plHandshake = none ∧
      u = { s with phase := .fault, req := s.req.tail }

/-- A faulted block stays faulted, silent and unchanged until reset, for any number of edges (60_exceptions.md R153,
R154). -/
def Obligations.FaultLastsUntilReset : Prop :=
  ∀ (n : Nat) (s : State), s.phase = .fault → s.noReset →
    ∃ t, runEdges n s = .next t ∧ s.sameBlock t ∧ t.faultOut = true

/-- RESET is the way out of FAULT, and the only one, and it leads to IDLE; faults do not nest, since no request is
taken in FAULT (60_exceptions.md R154). -/
def Obligations.OnlyResetLeavesFault : Prop :=
  ∀ s t : State, s.phase = .fault → step s = .next t →
    s.reqHandshake = none ∧ t.phase = (if s.pins.rst then .idle else .fault) ∧ t.faultOut = !s.pins.rst

/-- If every request keeps `len <= 254` the block never faults (42_payload_producer.md R138): no edge enters FAULT, and
the premise holds again after it. -/
def Obligations.LegalRequestsNeverFault : Prop :=
  ∀ s t : State, s.phase ≠ .fault → s.legalRequests → step s = .next t → t.phase ≠ .fault ∧ t.legalRequests

/-- Payload under-run (60_exceptions.md R155): in PAY with no byte queued and none to come, the block waits for ever,
busy, with nothing written and no fault. -/
def Obligations.UnderRunWaitsForEver : Prop :=
  ∀ (n : Nat) (s : State), s.phase = .pay → s.pay = [] → s.noReset → (∀ m ∈ s.env, m.pays.add = []) →
    ∃ t, runEdges n s = .next t ∧ s.sameBlock t ∧ t.busy = true ∧ t.faultOut = false

/-- Reset in mid-frame (70_reset_and_hazards.md R172): OUT keeps exactly the bytes already written, the frame's part of
them being what the phase says was emitted, with no `last` tag on any byte of it; PAY keeps what was not consumed; the
block is idle. -/
def Obligations.ResetCutsTheFrame : Prop :=
  ∀ (s : State) (base : List OutByte) (p : List Byte), s.inFrame base p → s.pins.rst = true →
    ∃ u, exec .reset s = .next u ∧ step s = .next u.clock ∧ u.phase = .idle ∧ u.pay = s.pay ∧
      u.out = s.out ∧ u.out = base ++ untagged (s.emitted p) ∧ ∀ b ∈ untagged (s.emitted p), b.last = false

/-- The payload account (70_reset_and_hazards.md R179, 20_memory.md R42): while the environment resets nothing,
withdraws nothing and asks for nothing illegal, every edge keeps what is supplied equal to what is asked for. -/
def Obligations.PayloadAccountBalances : Prop :=
  ∀ s t : State, s.inv → s.noReset → s.legalRequests → s.noWithdrawal → s.supplied = s.demand →
    step s = .next t →
      t.inv ∧ t.noReset ∧ t.legalRequests ∧ t.noWithdrawal ∧ t.supplied = t.demand

/-! ## The upstream environment -/

/-- A scalar of `w` bytes is its value modulo `2^(8w)`, most significant byte first (42_payload_producer.md R122,
R140). -/
def Obligations.ScalarIsBigEndianModulo : Prop :=
  ∀ (w : Nat) (v : Int),
    (Upstream.scalar w v).length = w ∧
      (((Upstream.scalar w v).foldl (fun acc b => acc * 256 + b.toNat) 0 : Nat) : Int) = v % 256 ^ w

/-- Every payload the encoder produces is within the cap, so it can be built without a fault (42_payload_producer.md
R124, R138; 40_build.md R80, R84): a payload is never longer than its layout allows, a call becomes a well-formed
BUILD, and that BUILD on an idle block ends in IDLE and not in FAULT. That exec of BUILD ends there in one transition
is log entry 7, and that a table entry which could make more than 254 bytes is none is log entry 29. -/
def Obligations.EncodedOperationsNeverFault : Prop :=
  (∀ (shape : Upstream.Shape) (payload : List Byte), Upstream.encodePayload shape = .ok payload →
    payload.length ≤ shape.layout.maxSize) ∧
    ∀ (op : Upstream.Operation) (e : Upstream.Envelope) (i : Instr), op.toInstr e = .ok i →
      (∀ p : Config.Params, WellFormed p i = true) ∧
        ∀ s : State, s.phase = .idle → s.pins.rst = false → s.req = [] →
          ∃ t, exec i s = .next t ∧ t.phase = .idle

/-- The caps (42_payload_producer.md R124, R136, R138): with exactly the cap the payload is the caller's bytes, after
the area selector for a fragment; above it the encoder answers Payload-too-large, and then no call makes a request,
`saveMacro` (30_encoding.md R75) among them. -/
def Obligations.UploadCapsAreExact : Prop :=
  ∀ (e : Upstream.Envelope) (area : Byte) (bytes : List Byte),
    (bytes.length ≤ 254 → Upstream.encodePayload (Upstream.macroUpload bytes) = .ok bytes) ∧
      (254 < bytes.length →
        Upstream.encodePayload (Upstream.macroUpload bytes) = .error (.payloadTooLarge bytes.length 254) ∧
          (Upstream.saveMacro bytes).toInstr e = .error (.payloadTooLarge bytes.length 254)) ∧
      (bytes.length ≤ 253 → Upstream.encodePayload (Upstream.fragmentUpload area bytes) = .ok (area :: bytes)) ∧
      (253 < bytes.length →
        Upstream.encodePayload (Upstream.fragmentUpload area bytes) = .error (.payloadTooLarge bytes.length 253)) ∧
      ∀ (op : Upstream.Operation) (err : Upstream.Error), Upstream.encodePayload op.shape = .error err →
        op.toInstr e = .error err
end

