-- ==== Sys2Proof/Laws/Arith.lean ====
section
/-! SUPPORT. The laws of the byte arithmetic and the lengths of the frame's parts. -/

namespace Sys2Proof.Machine

theorem add8_comm (a b : Byte) : add8 a b = add8 b a := BitVec.add_comm a b

theorem add8_assoc (a b c : Byte) : add8 (add8 a b) c = add8 a (add8 b c) := BitVec.add_assoc a b c

@[simp] theorem add8_zero (a : Byte) : add8 a 0#8 = a := BitVec.add_zero a

@[simp] theorem zero_add8 (a : Byte) : add8 0#8 a = a := BitVec.zero_add a

@[simp] theorem sum8_nil : sum8 [] = 0#8 := rfl

@[simp] theorem sum8_cons (b : Byte) (t : List Byte) : sum8 (b :: t) = add8 b (sum8 t) := rfl

/-- `sum8` of a concatenation is the sum of the parts. -/
@[simp] theorem sum8_append (xs ys : List Byte) : sum8 (xs ++ ys) = add8 (sum8 xs) (sum8 ys) := by
  induction xs with
  | nil => simp
  | cons b t ih => simp [ih, add8_assoc]

/-- Emitting one more byte adds it to the running sum. -/
theorem sum8_snoc (xs : List Byte) (b : Byte) : sum8 (xs ++ [b]) = add8 (sum8 xs) b := by simp

/-- Inside its range `inc8` is plain addition. -/
theorem inc8_of_ne {a : Byte} (h : a ≠ 255) : inc8 a = a + 1 := if_neg h

/-- Inside its range `rem - 1` is plain subtraction. -/
theorem dec8_of_ne {a : Byte} (h : a ≠ 0) : dec8 a = a - 1 := if_neg h

theorem dec8_toNat {a : Byte} (h : a ≠ 0) : (dec8 a).toNat = a.toNat - 1 := by
  rw [dec8_of_ne h]
  have : a.toNat ≠ 0 := fun e => h (BitVec.eq_of_toNat_eq e)
  bv_omega

@[simp] theorem untagged_nil : untagged [] = [] := rfl

@[simp] theorem untagged_append (xs ys : List Byte) : untagged (xs ++ ys) = untagged xs ++ untagged ys :=
  List.map_append

@[simp] theorem untagged_cons (b : Byte) (t : List Byte) :
    untagged (b :: t) = { data := b, last := false } :: untagged t := rfl

@[simp] theorem seqPart_length (p : Config.Params) (q : Byte) : (seqPart p q).length = seqCount p := by
  unfold seqPart seqCount
  split <;> rfl

@[simp] theorem covered_length (p : Config.Params) (r : Request) (payload : List Byte) :
    (covered p r payload).length = payload.length + 3 + seqCount p := by
  simp [covered]
  omega

@[simp] theorem frame_length (p : Config.Params) (r : Request) (payload : List Byte) :
    (frame p r payload).length = payload.length + 6 + seqCount p := by
  simp [frame, frameBody]
  omega

/-- One more payload byte extends the covered bytes at the end. -/
theorem covered_snoc (p : Config.Params) (r : Request) (payload : List Byte) (b : Byte) :
    covered p r (payload ++ [b]) = covered p r payload ++ [b] := by
  simp [covered]

end Sys2Proof.Machine
end

