-- ==== Sys2Proof/Laws/PerInstr.lean ====
section
/-! SUPPORT. One lemma per operation of the family OneWord: no other operation has its encoding (30_encoding.md R73). -/

namespace Sys2Proof.Laws.OneWord

/-- What selects an operation selects no other. -/
def Statement (i : Instr) : Prop := ∀ j : Instr, encode j = encode i → j = i

theorem buildAck (did cid seq : Byte) (payload : List Byte) : Statement (.buildAck did cid seq payload) := by
  intro j h
  cases j <;> simp_all [encode, Machine.requestOf]

theorem buildNoack (did cid seq : Byte) (payload : List Byte) : Statement (.buildNoack did cid seq payload) := by
  intro j h
  cases j <;> simp_all [encode, Machine.requestOf]

theorem accept : Statement .accept := by intro j h; cases j <;> simp_all [encode]

theorem emitMka : Statement .emitMka := by intro j h; cases j <;> simp_all [encode]

theorem emitMkb : Statement .emitMkb := by intro j h; cases j <;> simp_all [encode]

theorem emitDid : Statement .emitDid := by intro j h; cases j <;> simp_all [encode]

theorem emitCid : Statement .emitCid := by intro j h; cases j <;> simp_all [encode]

theorem emitSeq : Statement .emitSeq := by intro j h; cases j <;> simp_all [encode]

theorem emitLen : Statement .emitLen := by intro j h; cases j <;> simp_all [encode]

theorem emitPay : Statement .emitPay := by intro j h; cases j <;> simp_all [encode]

theorem emitChk : Statement .emitChk := by intro j h; cases j <;> simp_all [encode]

theorem faulted : Statement .faulted := by intro j h; cases j <;> simp_all [encode]

theorem reset : Statement .reset := by intro j h; cases j <;> simp_all [encode]

end Sys2Proof.Laws.OneWord
end

