-- ==== Sys2Proof/Laws/State.lean ====
section
/-! SUPPORT. What each update of the state does to each field, so that no proof unfolds a record update. -/

namespace Sys2Proof.Machine

@[simp] theorem setPhase_phase (s : State) (p : Phase) : (s.setPhase p).phase = p := rfl
@[simp] theorem setPhase_didR (s : State) (p : Phase) : (s.setPhase p).didR = s.didR := rfl
@[simp] theorem setPhase_cidR (s : State) (p : Phase) : (s.setPhase p).cidR = s.cidR := rfl
@[simp] theorem setPhase_seqR (s : State) (p : Phase) : (s.setPhase p).seqR = s.seqR := rfl
@[simp] theorem setPhase_ackR (s : State) (p : Phase) : (s.setPhase p).ackR = s.ackR := rfl
@[simp] theorem setPhase_lenR (s : State) (p : Phase) : (s.setPhase p).lenR = s.lenR := rfl
@[simp] theorem setPhase_rem (s : State) (p : Phase) : (s.setPhase p).rem = s.rem := rfl
@[simp] theorem setPhase_sum (s : State) (p : Phase) : (s.setPhase p).sum = s.sum := rfl
@[simp] theorem setPhase_req (s : State) (p : Phase) : (s.setPhase p).req = s.req := rfl
@[simp] theorem setPhase_pay (s : State) (p : Phase) : (s.setPhase p).pay = s.pay := rfl
@[simp] theorem setPhase_out (s : State) (p : Phase) : (s.setPhase p).out = s.out := rfl
@[simp] theorem setPhase_pins (s : State) (p : Phase) : (s.setPhase p).pins = s.pins := rfl
@[simp] theorem setPhase_env (s : State) (p : Phase) : (s.setPhase p).env = s.env := rfl
@[simp] theorem setPhase_inst (s : State) (p : Phase) : (s.setPhase p).inst = s.inst := rfl

@[simp] theorem setSum_phase (s : State) (v : Byte) : (s.setSum v).phase = s.phase := rfl
@[simp] theorem setSum_didR (s : State) (v : Byte) : (s.setSum v).didR = s.didR := rfl
@[simp] theorem setSum_cidR (s : State) (v : Byte) : (s.setSum v).cidR = s.cidR := rfl
@[simp] theorem setSum_seqR (s : State) (v : Byte) : (s.setSum v).seqR = s.seqR := rfl
@[simp] theorem setSum_ackR (s : State) (v : Byte) : (s.setSum v).ackR = s.ackR := rfl
@[simp] theorem setSum_lenR (s : State) (v : Byte) : (s.setSum v).lenR = s.lenR := rfl
@[simp] theorem setSum_rem (s : State) (v : Byte) : (s.setSum v).rem = s.rem := rfl
@[simp] theorem setSum_sum (s : State) (v : Byte) : (s.setSum v).sum = v := rfl
@[simp] theorem setSum_req (s : State) (v : Byte) : (s.setSum v).req = s.req := rfl
@[simp] theorem setSum_pay (s : State) (v : Byte) : (s.setSum v).pay = s.pay := rfl
@[simp] theorem setSum_out (s : State) (v : Byte) : (s.setSum v).out = s.out := rfl
@[simp] theorem setSum_pins (s : State) (v : Byte) : (s.setSum v).pins = s.pins := rfl
@[simp] theorem setSum_env (s : State) (v : Byte) : (s.setSum v).env = s.env := rfl
@[simp] theorem setSum_inst (s : State) (v : Byte) : (s.setSum v).inst = s.inst := rfl

@[simp] theorem setRem_phase (s : State) (v : Byte) : (s.setRem v).phase = s.phase := rfl
@[simp] theorem setRem_didR (s : State) (v : Byte) : (s.setRem v).didR = s.didR := rfl
@[simp] theorem setRem_cidR (s : State) (v : Byte) : (s.setRem v).cidR = s.cidR := rfl
@[simp] theorem setRem_seqR (s : State) (v : Byte) : (s.setRem v).seqR = s.seqR := rfl
@[simp] theorem setRem_ackR (s : State) (v : Byte) : (s.setRem v).ackR = s.ackR := rfl
@[simp] theorem setRem_lenR (s : State) (v : Byte) : (s.setRem v).lenR = s.lenR := rfl
@[simp] theorem setRem_rem (s : State) (v : Byte) : (s.setRem v).rem = v := rfl
@[simp] theorem setRem_sum (s : State) (v : Byte) : (s.setRem v).sum = s.sum := rfl
@[simp] theorem setRem_req (s : State) (v : Byte) : (s.setRem v).req = s.req := rfl
@[simp] theorem setRem_pay (s : State) (v : Byte) : (s.setRem v).pay = s.pay := rfl
@[simp] theorem setRem_out (s : State) (v : Byte) : (s.setRem v).out = s.out := rfl
@[simp] theorem setRem_pins (s : State) (v : Byte) : (s.setRem v).pins = s.pins := rfl
@[simp] theorem setRem_env (s : State) (v : Byte) : (s.setRem v).env = s.env := rfl
@[simp] theorem setRem_inst (s : State) (v : Byte) : (s.setRem v).inst = s.inst := rfl

@[simp] theorem popReq_phase (s : State) : s.popReq.phase = s.phase := rfl
@[simp] theorem popReq_didR (s : State) : s.popReq.didR = s.didR := rfl
@[simp] theorem popReq_cidR (s : State) : s.popReq.cidR = s.cidR := rfl
@[simp] theorem popReq_seqR (s : State) : s.popReq.seqR = s.seqR := rfl
@[simp] theorem popReq_ackR (s : State) : s.popReq.ackR = s.ackR := rfl
@[simp] theorem popReq_lenR (s : State) : s.popReq.lenR = s.lenR := rfl
@[simp] theorem popReq_rem (s : State) : s.popReq.rem = s.rem := rfl
@[simp] theorem popReq_sum (s : State) : s.popReq.sum = s.sum := rfl
@[simp] theorem popReq_req (s : State) : s.popReq.req = s.req.tail := rfl
@[simp] theorem popReq_pay (s : State) : s.popReq.pay = s.pay := rfl
@[simp] theorem popReq_out (s : State) : s.popReq.out = s.out := rfl
@[simp] theorem popReq_pins (s : State) : s.popReq.pins = s.pins := rfl
@[simp] theorem popReq_env (s : State) : s.popReq.env = s.env := rfl
@[simp] theorem popReq_inst (s : State) : s.popReq.inst = s.inst := rfl

@[simp] theorem popPay_phase (s : State) : s.popPay.phase = s.phase := rfl
@[simp] theorem popPay_didR (s : State) : s.popPay.didR = s.didR := rfl
@[simp] theorem popPay_cidR (s : State) : s.popPay.cidR = s.cidR := rfl
@[simp] theorem popPay_seqR (s : State) : s.popPay.seqR = s.seqR := rfl
@[simp] theorem popPay_ackR (s : State) : s.popPay.ackR = s.ackR := rfl
@[simp] theorem popPay_lenR (s : State) : s.popPay.lenR = s.lenR := rfl
@[simp] theorem popPay_rem (s : State) : s.popPay.rem = s.rem := rfl
@[simp] theorem popPay_sum (s : State) : s.popPay.sum = s.sum := rfl
@[simp] theorem popPay_req (s : State) : s.popPay.req = s.req := rfl
@[simp] theorem popPay_pay (s : State) : s.popPay.pay = s.pay.tail := rfl
@[simp] theorem popPay_out (s : State) : s.popPay.out = s.out := rfl
@[simp] theorem popPay_pins (s : State) : s.popPay.pins = s.pins := rfl
@[simp] theorem popPay_env (s : State) : s.popPay.env = s.env := rfl
@[simp] theorem popPay_inst (s : State) : s.popPay.inst = s.inst := rfl

@[simp] theorem writeOut_phase (s : State) (v : Byte) (last : Bool) : (s.writeOut v last).phase = s.phase := rfl
@[simp] theorem writeOut_didR (s : State) (v : Byte) (last : Bool) : (s.writeOut v last).didR = s.didR := rfl
@[simp] theorem writeOut_cidR (s : State) (v : Byte) (last : Bool) : (s.writeOut v last).cidR = s.cidR := rfl
@[simp] theorem writeOut_seqR (s : State) (v : Byte) (last : Bool) : (s.writeOut v last).seqR = s.seqR := rfl
@[simp] theorem writeOut_ackR (s : State) (v : Byte) (last : Bool) : (s.writeOut v last).ackR = s.ackR := rfl
@[simp] theorem writeOut_lenR (s : State) (v : Byte) (last : Bool) : (s.writeOut v last).lenR = s.lenR := rfl
@[simp] theorem writeOut_rem (s : State) (v : Byte) (last : Bool) : (s.writeOut v last).rem = s.rem := rfl
@[simp] theorem writeOut_sum (s : State) (v : Byte) (last : Bool) : (s.writeOut v last).sum = s.sum := rfl
@[simp] theorem writeOut_req (s : State) (v : Byte) (last : Bool) : (s.writeOut v last).req = s.req := rfl
@[simp] theorem writeOut_pay (s : State) (v : Byte) (last : Bool) : (s.writeOut v last).pay = s.pay := rfl
@[simp] theorem writeOut_out (s : State) (v : Byte) (last : Bool) :
    (s.writeOut v last).out = s.out ++ [{ data := v, last := last }] := rfl
@[simp] theorem writeOut_pins (s : State) (v : Byte) (last : Bool) : (s.writeOut v last).pins = s.pins := rfl
@[simp] theorem writeOut_env (s : State) (v : Byte) (last : Bool) : (s.writeOut v last).env = s.env := rfl
@[simp] theorem writeOut_inst (s : State) (v : Byte) (last : Bool) : (s.writeOut v last).inst = s.inst := rfl

@[simp] theorem emitSummed_phase (s : State) (b : Byte) : (s.emitSummed b).phase = s.phase := rfl
@[simp] theorem emitSummed_didR (s : State) (b : Byte) : (s.emitSummed b).didR = s.didR := rfl
@[simp] theorem emitSummed_cidR (s : State) (b : Byte) : (s.emitSummed b).cidR = s.cidR := rfl
@[simp] theorem emitSummed_seqR (s : State) (b : Byte) : (s.emitSummed b).seqR = s.seqR := rfl
@[simp] theorem emitSummed_ackR (s : State) (b : Byte) : (s.emitSummed b).ackR = s.ackR := rfl
@[simp] theorem emitSummed_lenR (s : State) (b : Byte) : (s.emitSummed b).lenR = s.lenR := rfl
@[simp] theorem emitSummed_rem (s : State) (b : Byte) : (s.emitSummed b).rem = s.rem := rfl
@[simp] theorem emitSummed_sum (s : State) (b : Byte) : (s.emitSummed b).sum = add8 s.sum b := rfl
@[simp] theorem emitSummed_req (s : State) (b : Byte) : (s.emitSummed b).req = s.req := rfl
@[simp] theorem emitSummed_pay (s : State) (b : Byte) : (s.emitSummed b).pay = s.pay := rfl
@[simp] theorem emitSummed_out (s : State) (b : Byte) :
    (s.emitSummed b).out = s.out ++ [{ data := b, last := false }] := rfl
@[simp] theorem emitSummed_pins (s : State) (b : Byte) : (s.emitSummed b).pins = s.pins := rfl
@[simp] theorem emitSummed_env (s : State) (b : Byte) : (s.emitSummed b).env = s.env := rfl
@[simp] theorem emitSummed_inst (s : State) (b : Byte) : (s.emitSummed b).inst = s.inst := rfl

@[simp] theorem latch_phase (s : State) (r : Request) : (s.latch r).phase = s.phase := rfl
@[simp] theorem latch_didR (s : State) (r : Request) : (s.latch r).didR = r.did := rfl
@[simp] theorem latch_cidR (s : State) (r : Request) : (s.latch r).cidR = r.cid := rfl
@[simp] theorem latch_seqR (s : State) (r : Request) : (s.latch r).seqR = r.seq := rfl
@[simp] theorem latch_ackR (s : State) (r : Request) : (s.latch r).ackR = r.ack := rfl
@[simp] theorem latch_lenR (s : State) (r : Request) : (s.latch r).lenR = r.len := rfl
@[simp] theorem latch_rem (s : State) (r : Request) : (s.latch r).rem = r.len := rfl
@[simp] theorem latch_sum (s : State) (r : Request) : (s.latch r).sum = 0 := rfl
@[simp] theorem latch_req (s : State) (r : Request) : (s.latch r).req = s.req := rfl
@[simp] theorem latch_pay (s : State) (r : Request) : (s.latch r).pay = s.pay := rfl
@[simp] theorem latch_out (s : State) (r : Request) : (s.latch r).out = s.out := rfl
@[simp] theorem latch_pins (s : State) (r : Request) : (s.latch r).pins = s.pins := rfl
@[simp] theorem latch_env (s : State) (r : Request) : (s.latch r).env = s.env := rfl
@[simp] theorem latch_inst (s : State) (r : Request) : (s.latch r).inst = s.inst := rfl

@[simp] theorem enterLenFault_phase (s : State) : s.enterLenFault.phase = .fault := rfl
@[simp] theorem enterLenFault_didR (s : State) : s.enterLenFault.didR = s.didR := rfl
@[simp] theorem enterLenFault_cidR (s : State) : s.enterLenFault.cidR = s.cidR := rfl
@[simp] theorem enterLenFault_seqR (s : State) : s.enterLenFault.seqR = s.seqR := rfl
@[simp] theorem enterLenFault_ackR (s : State) : s.enterLenFault.ackR = s.ackR := rfl
@[simp] theorem enterLenFault_lenR (s : State) : s.enterLenFault.lenR = s.lenR := rfl
@[simp] theorem enterLenFault_rem (s : State) : s.enterLenFault.rem = s.rem := rfl
@[simp] theorem enterLenFault_sum (s : State) : s.enterLenFault.sum = s.sum := rfl
@[simp] theorem enterLenFault_req (s : State) : s.enterLenFault.req = s.req := rfl
@[simp] theorem enterLenFault_pay (s : State) : s.enterLenFault.pay = s.pay := rfl
@[simp] theorem enterLenFault_out (s : State) : s.enterLenFault.out = s.out := rfl
@[simp] theorem enterLenFault_pins (s : State) : s.enterLenFault.pins = s.pins := rfl
@[simp] theorem enterLenFault_env (s : State) : s.enterLenFault.env = s.env := rfl
@[simp] theorem enterLenFault_inst (s : State) : s.enterLenFault.inst = s.inst := rfl

@[simp] theorem resetRegs_phase (s : State) : s.resetRegs.phase = .idle := rfl
@[simp] theorem resetRegs_didR (s : State) : s.resetRegs.didR = 0 := rfl
@[simp] theorem resetRegs_cidR (s : State) : s.resetRegs.cidR = 0 := rfl
@[simp] theorem resetRegs_seqR (s : State) : s.resetRegs.seqR = 0 := rfl
@[simp] theorem resetRegs_ackR (s : State) : s.resetRegs.ackR = false := rfl
@[simp] theorem resetRegs_lenR (s : State) : s.resetRegs.lenR = 0 := rfl
@[simp] theorem resetRegs_rem (s : State) : s.resetRegs.rem = 0 := rfl
@[simp] theorem resetRegs_sum (s : State) : s.resetRegs.sum = 0 := rfl
@[simp] theorem resetRegs_req (s : State) : s.resetRegs.req = s.req := rfl
@[simp] theorem resetRegs_pay (s : State) : s.resetRegs.pay = s.pay := rfl
@[simp] theorem resetRegs_out (s : State) : s.resetRegs.out = s.out := rfl
@[simp] theorem resetRegs_pins (s : State) : s.resetRegs.pins = s.pins := rfl
@[simp] theorem resetRegs_env (s : State) : s.resetRegs.env = s.env := rfl
@[simp] theorem resetRegs_inst (s : State) : s.resetRegs.inst = s.inst := rfl

@[simp] theorem offer_phase (s : State) (r : Request) (payload : List Byte) :
    (s.offer r payload).phase = s.phase := rfl
@[simp] theorem offer_didR (s : State) (r : Request) (payload : List Byte) : (s.offer r payload).didR = s.didR := rfl
@[simp] theorem offer_cidR (s : State) (r : Request) (payload : List Byte) : (s.offer r payload).cidR = s.cidR := rfl
@[simp] theorem offer_seqR (s : State) (r : Request) (payload : List Byte) : (s.offer r payload).seqR = s.seqR := rfl
@[simp] theorem offer_ackR (s : State) (r : Request) (payload : List Byte) : (s.offer r payload).ackR = s.ackR := rfl
@[simp] theorem offer_lenR (s : State) (r : Request) (payload : List Byte) : (s.offer r payload).lenR = s.lenR := rfl
@[simp] theorem offer_rem (s : State) (r : Request) (payload : List Byte) : (s.offer r payload).rem = s.rem := rfl
@[simp] theorem offer_sum (s : State) (r : Request) (payload : List Byte) : (s.offer r payload).sum = s.sum := rfl
@[simp] theorem offer_req (s : State) (r : Request) (payload : List Byte) :
    (s.offer r payload).req = s.req ++ [r] := rfl
@[simp] theorem offer_pay (s : State) (r : Request) (payload : List Byte) :
    (s.offer r payload).pay = s.pay ++ payload := rfl
@[simp] theorem offer_out (s : State) (r : Request) (payload : List Byte) : (s.offer r payload).out = s.out := rfl
@[simp] theorem offer_pins (s : State) (r : Request) (payload : List Byte) : (s.offer r payload).pins = s.pins := rfl
@[simp] theorem offer_env (s : State) (r : Request) (payload : List Byte) : (s.offer r payload).env = s.env := rfl
@[simp] theorem offer_inst (s : State) (r : Request) (payload : List Byte) : (s.offer r payload).inst = s.inst := rfl

@[simp] theorem buildHead_phase (s : State) (r : Request) : (s.buildHead r).phase = .idle := rfl
@[simp] theorem buildHead_didR (s : State) (r : Request) : (s.buildHead r).didR = r.did := rfl
@[simp] theorem buildHead_cidR (s : State) (r : Request) : (s.buildHead r).cidR = r.cid := rfl
@[simp] theorem buildHead_seqR (s : State) (r : Request) : (s.buildHead r).seqR = r.seq := rfl
@[simp] theorem buildHead_ackR (s : State) (r : Request) : (s.buildHead r).ackR = r.ack := rfl
@[simp] theorem buildHead_lenR (s : State) (r : Request) : (s.buildHead r).lenR = r.len := rfl
@[simp] theorem buildHead_rem (s : State) (r : Request) : (s.buildHead r).rem = 0 := rfl
@[simp] theorem buildHead_sum (s : State) (r : Request) :
    (s.buildHead r).sum = sum8 (covered s.inst r (s.pay.take r.len.toNat)) := rfl
@[simp] theorem buildHead_req (s : State) (r : Request) : (s.buildHead r).req = s.req.tail := rfl
@[simp] theorem buildHead_pay (s : State) (r : Request) : (s.buildHead r).pay = s.pay.drop r.len.toNat := rfl
@[simp] theorem buildHead_out (s : State) (r : Request) :
    (s.buildHead r).out = s.out ++ frameOut s.inst r (s.pay.take r.len.toNat) := rfl
@[simp] theorem buildHead_pins (s : State) (r : Request) : (s.buildHead r).pins = s.pins := rfl
@[simp] theorem buildHead_env (s : State) (r : Request) : (s.buildHead r).env = s.env := rfl
@[simp] theorem buildHead_inst (s : State) (r : Request) : (s.buildHead r).inst = s.inst := rfl

@[simp] theorem clock_phase (s : State) : s.clock.phase = s.phase := by unfold State.clock; split <;> rfl
@[simp] theorem clock_didR (s : State) : s.clock.didR = s.didR := by unfold State.clock; split <;> rfl
@[simp] theorem clock_cidR (s : State) : s.clock.cidR = s.cidR := by unfold State.clock; split <;> rfl
@[simp] theorem clock_seqR (s : State) : s.clock.seqR = s.seqR := by unfold State.clock; split <;> rfl
@[simp] theorem clock_ackR (s : State) : s.clock.ackR = s.ackR := by unfold State.clock; split <;> rfl
@[simp] theorem clock_lenR (s : State) : s.clock.lenR = s.lenR := by unfold State.clock; split <;> rfl
@[simp] theorem clock_rem (s : State) : s.clock.rem = s.rem := by unfold State.clock; split <;> rfl
@[simp] theorem clock_sum (s : State) : s.clock.sum = s.sum := by unfold State.clock; split <;> rfl
@[simp] theorem clock_out (s : State) : s.clock.out = s.out := by unfold State.clock; split <;> rfl
@[simp] theorem clock_inst (s : State) : s.clock.inst = s.inst := by unfold State.clock; split <;> rfl

theorem clock_idle (s : State) (h : s.env = []) : s.clock = s := by simp [State.clock, h]

/-- Two states with equal fields are equal. -/
theorem State.ext_fields {s t : State} (h : s.phase = t.phase ∧ s.didR = t.didR ∧ s.cidR = t.cidR ∧ s.seqR = t.seqR ∧
    s.ackR = t.ackR ∧ s.lenR = t.lenR ∧ s.rem = t.rem ∧ s.sum = t.sum ∧ s.req = t.req ∧ s.pay = t.pay ∧
    s.out = t.out ∧ s.pins = t.pins ∧ s.env = t.env ∧ s.inst = t.inst) : s = t := by
  cases s
  cases t
  simp_all

end Sys2Proof.Machine
end

