-- ==== Sys2Proof/Laws/Step.lean ====
section
/-! SUPPORT. What one edge does, said once per phase: later proofs cite these instead of unfolding the step. -/

namespace Sys2Proof.Machine

/-- The EMIT shape: either the step's result, in its phase and with the handshake complete, or nothing. -/
theorem onEmit_cases (s : State) (own : Phase) (t : State) :
    (s.phase = own ∧ s.outHandshake.isSome ∧ s.onEmit own t = t) ∨ s.onEmit own t = s := by
  unfold State.onEmit
  split
  · rename_i h
    exact .inl ⟨h.1, h.2, rfl⟩
  · exact .inr rfl

/-- Outside PAY, IDLE and FAULT the OUT handshake is `out_ready`. -/
theorem onEmit_ready {s : State} {own : Phase} (t : State) (hr : s.pins.rst = false) (hp : s.phase = own)
    (hd : s.outData.isSome) : s.onEmit own t = if s.pins.outReady then t else s := by
  unfold State.onEmit State.outHandshake
  cases h : s.pins.outReady <;> simp [hp, hr, hd]

theorem step_rst {s : State} (h : s.pins.rst = true) : step s = .next s.resetRegs.clock := by
  simp [step, State.fetch, State.selector, h, decode, exec, execReset, afterEdge]

/-- With `rst = 0` the phase selects the operation. -/
theorem step_of_phase {s : State} {i : Instr} (hr : s.pins.rst = false) (hi : decodePhase s.phase.code = .ok i) :
    step s = afterEdge (exec i s) := by
  simp [step, State.fetch, State.selector, hr, decode, hi]

theorem step_idle {s : State} (hr : s.pins.rst = false) (hp : s.phase = .idle) :
    step s = .next (match s.reqPort with
      | none => s
      | some r => s.takeRequest r).clock := by
  rw [step_of_phase hr (i := .accept) (by rw [hp]; rfl)]
  cases h : s.reqPort <;> simp [exec, execAccept, afterEdge, State.reqHandshake, State.reqReady, hr, hp, h]

theorem step_mka {s : State} (hr : s.pins.rst = false) (hp : s.phase = .mka) :
    step s = .next (if s.pins.outReady then (s.writeOut s.inst.markerA false).setPhase .mkb else s).clock := by
  rw [step_of_phase hr (i := .emitMka) (by rw [hp]; rfl)]
  simp [exec, execEmitMka, afterEdge, onEmit_ready _ hr hp, State.outData, hp]

theorem step_mkb {s : State} (hr : s.pins.rst = false) (hp : s.phase = .mkb) :
    step s = .next (if s.pins.outReady then (s.writeOut s.markerBByte false).setPhase .did else s).clock := by
  rw [step_of_phase hr (i := .emitMkb) (by rw [hp]; rfl)]
  simp [exec, execEmitMkb, afterEdge, onEmit_ready _ hr hp, State.outData, hp]

theorem step_did {s : State} (hr : s.pins.rst = false) (hp : s.phase = .did) :
    step s = .next (if s.pins.outReady then (s.emitSummed s.didR).setPhase .cid else s).clock := by
  rw [step_of_phase hr (i := .emitDid) (by rw [hp]; rfl)]
  simp [exec, execEmitDid, afterEdge, onEmit_ready _ hr hp, State.outData, hp]

theorem step_cid {s : State} (hr : s.pins.rst = false) (hp : s.phase = .cid) :
    step s = .next (if s.pins.outReady then (s.emitSummed s.cidR).setPhase s.afterCid else s).clock := by
  rw [step_of_phase hr (i := .emitCid) (by rw [hp]; rfl)]
  simp [exec, execEmitCid, afterEdge, onEmit_ready _ hr hp, State.outData, hp]

theorem step_seq {s : State} (hr : s.pins.rst = false) (hp : s.phase = .seq) (hs : s.inst.seqInFrame = true) :
    step s = .next (if s.pins.outReady then (s.emitSummed s.seqR).setPhase .len else s).clock := by
  rw [step_of_phase hr (i := .emitSeq) (by rw [hp]; rfl)]
  simp [exec, execEmitSeq, afterEdge, onEmit_ready _ hr hp, State.outData, hp, hs]

theorem step_seq_absent {s : State} (hr : s.pins.rst = false) (hp : s.phase = .seq)
    (hs : s.inst.seqInFrame = false) : step s = .fault .noStepSelected := by
  rw [step_of_phase hr (i := .emitSeq) (by rw [hp]; rfl)]
  simp [exec, execEmitSeq, afterEdge, hs]

theorem step_len {s : State} (hr : s.pins.rst = false) (hp : s.phase = .len) :
    step s = .next (if s.pins.outReady then (s.emitSummed s.lengthByte).setPhase s.afterLen else s).clock := by
  rw [step_of_phase hr (i := .emitLen) (by rw [hp]; rfl)]
  simp [exec, execEmitLen, afterEdge, onEmit_ready _ hr hp, State.outData, hp]

theorem step_pay {s : State} (hr : s.pins.rst = false) (hp : s.phase = .pay) :
    step s = .next (match s.plPort with
      | none => s
      | some b =>
        if s.pins.outReady then ((s.popPay.emitSummed b).setRem (dec8 s.rem)).setPhase s.afterPay else s).clock := by
  rw [step_of_phase hr (i := .emitPay) (by rw [hp]; rfl)]
  cases h : s.plPort with
  | none => simp [exec, execEmitPay, afterEdge, h]
  | some b => simp [exec, execEmitPay, afterEdge, h, onEmit_ready _ hr hp, State.outData, hp]

theorem step_chk {s : State} (hr : s.pins.rst = false) (hp : s.phase = .chk) :
    step s = .next (if s.pins.outReady then (s.writeOut s.checksumByte true).setPhase .idle else s).clock := by
  rw [step_of_phase hr (i := .emitChk) (by rw [hp]; rfl)]
  simp [exec, execEmitChk, afterEdge, onEmit_ready _ hr hp, State.outData, hp]

theorem step_fault {s : State} (hr : s.pins.rst = false) (hp : s.phase = .fault) : step s = .next s.clock := by
  rw [step_of_phase hr (i := .faulted) (by rw [hp]; rfl)]
  rfl

/-- ALL THAT AN EDGE CAN DO, when it has a next state: RESET, or with `rst = 0` the step of the phase or its hold, and
then the environment's move. -/
theorem step_cases {s t : State} (h : step s = .next t) :
    (s.pins.rst = true ∧ t = s.resetRegs.clock) ∨
    (s.pins.rst = false ∧
      ((s.phase = .idle ∧ s.reqPort = none ∧ t = s.clock) ∨
        (s.phase = .idle ∧ ∃ r, s.reqPort = some r ∧ t = (s.takeRequest r).clock) ∨
        (s.phase = .mka ∧
          t = (if s.pins.outReady then (s.writeOut s.inst.markerA false).setPhase .mkb else s).clock) ∨
        (s.phase = .mkb ∧
          t = (if s.pins.outReady then (s.writeOut s.markerBByte false).setPhase .did else s).clock) ∨
        (s.phase = .did ∧ t = (if s.pins.outReady then (s.emitSummed s.didR).setPhase .cid else s).clock) ∨
        (s.phase = .cid ∧ t = (if s.pins.outReady then (s.emitSummed s.cidR).setPhase s.afterCid else s).clock) ∨
        (s.phase = .seq ∧ s.inst.seqInFrame = true ∧
          t = (if s.pins.outReady then (s.emitSummed s.seqR).setPhase .len else s).clock) ∨
        (s.phase = .len ∧
          t = (if s.pins.outReady then (s.emitSummed s.lengthByte).setPhase s.afterLen else s).clock) ∨
        (s.phase = .pay ∧ s.plPort = none ∧ t = s.clock) ∨
        (s.phase = .pay ∧ ∃ b, s.plPort = some b ∧
          t = (if s.pins.outReady then ((s.popPay.emitSummed b).setRem (dec8 s.rem)).setPhase s.afterPay
            else s).clock) ∨
        (s.phase = .chk ∧
          t = (if s.pins.outReady then (s.writeOut s.checksumByte true).setPhase .idle else s).clock) ∨
        (s.phase = .fault ∧ t = s.clock))) := by
  cases hr : s.pins.rst with
  | true =>
    rw [step_rst hr] at h
    cases h
    exact .inl ⟨rfl, rfl⟩
  | false =>
    refine .inr ⟨rfl, ?_⟩
    cases hp : s.phase with
    | idle =>
      rw [step_idle hr hp] at h
      cases hq : s.reqPort <;> simp_all
    | mka => rw [step_mka hr hp] at h; simp_all
    | mkb => rw [step_mkb hr hp] at h; simp_all
    | did => rw [step_did hr hp] at h; simp_all
    | cid => rw [step_cid hr hp] at h; simp_all
    | seq =>
      cases hs : s.inst.seqInFrame with
      | false => rw [step_seq_absent hr hp hs] at h; cases h
      | true => rw [step_seq hr hp hs] at h; simp_all
    | len => rw [step_len hr hp] at h; simp_all
    | pay =>
      rw [step_pay hr hp] at h
      cases hq : s.plPort <;> simp_all
    | chk => rw [step_chk hr hp] at h; simp_all
    | fault => rw [step_fault hr hp] at h; simp_all

/-- The two things ACCEPT can do with a record. -/
theorem takeRequest_legal {s : State} {r : Request} (h : r.len ≠ 255) :
    s.takeRequest r = (s.popReq.latch r).setPhase .mka := by
  have : lenIllegal r = false := beq_eq_false_iff_ne.mpr h
  simp [State.takeRequest, this]

theorem takeRequest_illegal {s : State} {r : Request} (h : r.len = 255) :
    s.takeRequest r = s.popReq.enterLenFault := by
  simp [State.takeRequest, lenIllegal, h]

/-- The request port shows the head of REQ. -/
theorem reqPort_some {s : State} {r : Request} (h : s.reqPort = some r) :
    s.pins.reqValid = true ∧ ∃ rest, s.req = r :: rest := by
  unfold State.reqPort at h
  split at h
  · rename_i hv
    cases hq : s.req with
    | nil => simp [hq] at h
    | cons a rest => exact ⟨hv, rest, by simp_all⟩
  · cases h

/-- The payload port shows the head of PAY. -/
theorem plPort_some {s : State} {b : Byte} (h : s.plPort = some b) :
    s.pins.plValid = true ∧ ∃ rest, s.pay = b :: rest := by
  unfold State.plPort at h
  split at h
  · rename_i hv
    cases hq : s.pay with
    | nil => simp [hq] at h
    | cons a rest => exact ⟨hv, rest, by simp_all⟩
  · cases h

/-- What BUILD can do, case by case. -/
theorem build_cases (s : State) (ack : Bool) (did cid seq : Byte) (payload : List Byte) :
    (255 < payload.length ∧
      s.build ack did cid seq payload = .refused (.lengthNotExpressible payload.length)) ∨
    (payload.length ≤ 255 ∧ s.takesNext = false ∧
      s.build ack did cid seq payload = .next (s.offer (requestOf did cid seq ack payload) payload)) ∨
    (payload.length = 255 ∧ s.takesNext = true ∧
      s.build ack did cid seq payload =
        .next (s.offer (requestOf did cid seq ack payload) payload).popReq.enterLenFault) ∨
    (payload.length ≤ 254 ∧ s.takesNext = true ∧
      s.build ack did cid seq payload =
        .next ((s.offer (requestOf did cid seq ack payload) payload).buildHead
          (requestOf did cid seq ack payload))) := by
  unfold State.build
  by_cases h : 255 < payload.length
  · exact .inl ⟨h, if_pos h⟩
  · right
    cases hn : s.takesNext with
    | false => exact .inl ⟨by omega, rfl, by simp [h]⟩
    | true =>
      right
      by_cases he : payload.length = 255
      · exact .inl ⟨he, rfl, by simp [lenIllegal, requestOf, he]⟩
      · refine .inr ⟨by omega, rfl, ?_⟩
        have : BitVec.ofNat 8 payload.length ≠ 255#8 := by
          intro e
          have := congrArg BitVec.toNat e
          simp at this
          omega
        simp [h, lenIllegal, requestOf, this]

end Sys2Proof.Machine
end

