-- ==== Sys2Proof/Laws/Run.lean ====
section
/-! SUPPORT. Unfolding a run of several edges by one edge. -/

namespace Sys2Proof.Machine

/-- The host's run of the machine is `runEdges`. -/
theorem core_run_eq (n : Nat) (s : State) : Host.Core.run core n s = runEdges n s := by
  induction n generalizing s with
  | zero => rfl
  | succ n ih =>
    have e : Host.Core.step core s = step s := rfl
    cases h : step s with
    | next t =>
      have : Host.Core.run core (n + 1) s = Host.Core.run core n t := by simp [Host.Core.run, e, h]
      simp only [runEdges, h]
      exact this.trans (ih t)
    | fault f =>
      have : Host.Core.run core (n + 1) s = .fault f := by simp [Host.Core.run, e, h]
      simp only [runEdges, h]
      exact this
    | refused r =>
      have : Host.Core.run core (n + 1) s = .refused r := by simp [Host.Core.run, e, h]
      simp only [runEdges, h]
      exact this

@[simp] theorem run_zero (s : State) : runEdges 0 s = .next s := rfl

/-- One edge, then the rest of the run. -/
theorem run_of_step {n : Nat} {s u : State} (h : step s = .next u) : runEdges (n + 1) s = runEdges n u := by
  simp only [runEdges, h]

/-- A run that answers a next state did so at its first edge too. -/
theorem run_succ {n : Nat} {s t : State} (h : runEdges (n + 1) s = .next t) :
    ∃ u, step s = .next u ∧ runEdges n u = .next t := by
  cases hs : step s with
  | next u => exact ⟨u, rfl, by rw [← run_of_step hs]; exact h⟩
  | fault f => simp [runEdges, hs] at h
  | refused r => simp [runEdges, hs] at h

/-- Runs compose. -/
theorem run_add {m n : Nat} {s u : State} (h : runEdges m s = .next u) : runEdges (m + n) s = runEdges n u := by
  induction m generalizing s with
  | zero =>
    cases h
    rw [Nat.zero_add]
  | succ m ih =>
    obtain ⟨v, hv, hr⟩ := run_succ h
    rw [Nat.succ_add, run_of_step hv, ih hr]

end Sys2Proof.Machine
end

