-- ==== Sys2Proof/Laws/Upstream.lean ====
section
/-! SUPPORT. Laws of the upstream encoder: how many bytes a payload has, and what a table entry says. -/

namespace Sys2Proof.Machine.Upstream

@[simp] theorem scalar_length (w : Nat) (v : Int) : (scalar w v).length = w := by simp [scalar]

@[simp] theorem Scalar.encode_length (f : Scalar) : f.encode.length = f.width.bytes := by simp [Scalar.encode]

@[simp] theorem Field.encode_length (f : Field) : f.encode.length = f.layout.bytes := by
  cases f <;> simp [Field.encode, Field.layout, FieldLayout.bytes]

/-- Scalars one after another take the bytes of their widths. -/
theorem scalars_length (fields : List Scalar) :
    (fields.flatMap Scalar.encode).length = widthsSize (fields.map Scalar.width) := by
  simp [widthsSize, List.length_flatMap, Function.comp_def]

/-- A blob within its cap is its bytes behind the leading ones, and nothing is accepted above it. -/
theorem capped_ok {cap : Nat} {lead bytes p : List Byte} (h : capped cap lead bytes = .ok p) :
    p = lead ++ bytes ∧ bytes.length ≤ cap := by
  unfold capped at h
  split at h
  · cases h
  · rename_i hc
    cases h
    exact ⟨rfl, by omega⟩

theorem Blob.encode_length_le {b : Blob} {p : List Byte} (h : b.encode = .ok p) : p.length ≤ b.layout.maxSize := by
  cases b with
  | upload bytes => obtain ⟨rfl, hc⟩ := capped_ok h; simpa [Blob.layout, BlobLayout.maxSize] using hc
  | fragment area bytes => obtain ⟨rfl, hc⟩ := capped_ok h; simp [Blob.layout, BlobLayout.maxSize]; omega
  | block32 block => cases h; simp [Blob.layout, BlobLayout.maxSize]
  | block254 block => cases h; simp [Blob.layout, BlobLayout.maxSize]

/-- Whatever the encoder accepts is within the most its layout can make. -/
theorem encodePayload_length_le {s : Shape} {p : List Byte} (h : encodePayload s = .ok p) :
    p.length ≤ s.layout.maxSize := by
  cases s with
  | empty => cases h; simp
  | scalars fields => cases h; exact (scalars_length fields).le
  | bitfield fields =>
    cases h
    simp [Shape.layout, PayloadLayout.maxSize, List.length_flatMap, Function.comp_def]
  | blob b => exact Blob.encode_length_le h
  | conditional fields trailing value =>
    cases h
    cases value <;> simp [Shape.layout, PayloadLayout.maxSize, widthsSize, Function.comp_def]

/-- A table entry keeps the block's cap. -/
theorem descriptorOf_maxSize {name : String} {d : Descriptor} (h : descriptorOf name = some d) :
    d.layout.maxSize ≤ 254 := by
  unfold descriptorOf at h
  split at h
  · cases h
  · split at h
    · cases h; assumption
    · cases h

/-- A call is the BUILD of its payload, in the form its envelope selects. -/
theorem Operation.toInstr_ok {op : Operation} {e : Envelope} {i : Instr} (h : op.toInstr e = .ok i) :
    ∃ payload, encodePayload op.shape = .ok payload ∧ payload.length ≤ 254 ∧
      i = if e.ack then .buildAck op.descriptor.did op.descriptor.cid e.seq payload
        else .buildNoack op.descriptor.did op.descriptor.cid e.seq payload := by
  unfold Operation.toInstr at h
  split at h
  · cases h
  · rename_i payload hp
    have size := encodePayload_length_le hp
    rw [op.fits] at size
    refine ⟨payload, hp, size.trans (descriptorOf_maxSize op.inTable), ?_⟩
    split at h <;> cases h <;> simp_all

end Sys2Proof.Machine.Upstream
end

