-- ==== Sys2Proof/Tests/Slice0.lean ====
section
/-! SUPPORT. Small tests. Expected values are the spec's own: the vectors of 95_test_vectors.md (V, A, M, X, P-) and the
encodings of 30_encoding.md, written out by hand. The second half gives, for every statement with hypotheses, states and
operands that meet them. -/

namespace Sys2Proof.Tests

open Sys2Proof Sys2Proof.Machine

/-! ## Helpers -/

/-- The next state, if there is one. -/
def nextOf : Host.Outcome State Fault Refusal → Option State
  | .next s => some s
  | .fault _ => none
  | .refused _ => none

/-- A block in a phase, everyone willing, the streams empty, S = 0. -/
def ready (p : Phase) : State := { State.reset with phase := p, pins := Pins.willing }

/-- The same block as an instance with the sequence byte, S = 1. -/
def withSeq (s : State) : State := { s with inst := { s.inst with seqInFrame := true } }

/-- With the sink not ready. -/
def stalled (s : State) : State := { s with pins := { s.pins with outReady := false } }

/-- With `rst = 1`. -/
def inReset (s : State) : State := { s with pins := { s.pins with rst := true } }

/-- The default instance, S = 0 or S = 1. -/
def params (seqInFrame : Bool) : Config.Params := { Config.Params.specDefault with seqInFrame := seqInFrame }

/-- The bytes an operation adds to an empty OUT, and their `last` tags. -/
def emittedBytes (o : Host.Outcome State Fault Refusal) : Option (List Byte × List Bool) :=
  (nextOf o).map fun t => (t.out.map OutByte.data, t.out.map OutByte.last)

/-- The registers in the order of 95_test_vectors.md section 2.2. -/
def registers (o : Host.Outcome State Fault Refusal) : Option (Phase × List Byte × Bool × List Byte) :=
  (nextOf o).map fun t => (t.phase, [t.didR, t.cidR, t.seqR], t.ackR, [t.lenR, t.rem, t.sum])

/-! ## Well-formedness -/

theorem test_wellformed_cap_254 : WellFormed (params false) (.buildAck 0 0 0 (List.replicate 254 0)) = true := by
  simp only [WellFormed, payloadLegal, List.length_replicate]
  decide

theorem test_illformed_build_ack_255 : WellFormed (params false) (.buildAck 0 0 0 (List.replicate 255 0)) = false := by
  simp only [WellFormed, payloadLegal, List.length_replicate]
  decide

theorem test_illformed_build_noack_255 :
    WellFormed (params true) (.buildNoack 0 0 0 (List.replicate 255 0)) = false := by
  simp only [WellFormed, payloadLegal, List.length_replicate]
  decide

theorem test_illformed_emit_seq_without_sequence : WellFormed (params false) .emitSeq = false := by decide

/-! ## Decoding: words written out from the spec -/

/-- Phase codes 0 to 9 (10_state.md R26, 30_encoding.md R73), as words of the opcode table. -/
theorem test_decode_phase_words :
    (List.range 10).map (decodeTableWord 8) =
      [some .accept, some .emitMka, some .emitMkb, some .emitDid, some .emitCid, some .emitSeq, some .emitLen,
        some .emitPay, some .emitChk, some .faulted] := by decide

/-- Codes 10 to 15 select nothing (R73). -/
theorem test_decode_unused_phase_words :
    (List.range 6).map (fun n => decodeTableWord 8 (10 + n)) = [none, none, none, none, none, none] := by decide

/-- The `rst` port selects RESET (R73). -/
theorem test_decode_rst : decode (.rst true) = .ok .reset ∧ decode (.rst false) = .error .rstLow := by
  exact ⟨rfl, rfl⟩

/-- The record of V4 (R71): did 02, cid 20, seq 06, ack 1, len 04. -/
theorem test_decode_request_ack :
    decode (.request { did := 0x02, cid := 0x20, seq := 0x06, ack := true, len := 0x04 } [0xFF, 0x00, 0x00, 0x01]) =
      .ok (.buildAck 0x02 0x20 0x06 [0xFF, 0x00, 0x00, 0x01]) := by rfl

/-- The record of V2 (R71): no payload, ack 0. -/
theorem test_decode_request_noack :
    decode (.request { did := 0x00, cid := 0x01, seq := 0x37, ack := false, len := 0x00 } []) =
      .ok (.buildNoack 0x00 0x01 0x37 []) := by rfl

/-- A payload that is not `len` bytes is no BUILD (70_reset_and_hazards.md R179). -/
theorem test_decode_request_count :
    decode (.request { did := 0, cid := 0, seq := 0, ack := true, len := 2 } [0xAA]) =
      .error (.payloadCount 2 1) := by rfl

/-- The heads of V5's frames (R60): FF FE 02 30 05 for S = 0, FF FE 02 30 07 05 for S = 1, the first byte lowest. -/
theorem test_decode_head_words :
    decodeTableWord 40 0x053002FEFF = some (.buildNoack 0x02 0x30 0x00 [0, 0, 0, 0]) ∧
      decodeTableWord 48 0x05073002FEFF = some (.buildNoack 0x02 0x30 0x07 [0, 0, 0, 0]) ∧
      decodeTableWord 40 0x010100FFFF = some (.buildAck 0x00 0x01 0x00 []) := by decide

/-- A head whose length byte is 0, or whose markers are none of the instance's, is refused (R66, R61, R72 (c)). -/
theorem test_decode_head_refused :
    decodeTableWord 40 0x000100FFFF = none ∧ decodeTableWord 40 0x010100FF00 = none ∧
      decodeTableWord 40 0x01010000FF = none := by decide

/-- The frames of V3, byte by byte, S = 0 and S = 1. -/
theorem test_read_frame_ack :
    readFrame (params false) [0xFF, 0xFF, 0x02, 0x02, 0x02, 0x01, 0xF8] =
        .ok ({ ack := true, did := 0x02, cid := 0x02, seq := none, payload := [0x01] }, []) ∧
      readFrame (params true) [0xFF, 0xFF, 0x02, 0x02, 0x05, 0x02, 0x01, 0xF3] =
        .ok ({ ack := true, did := 0x02, cid := 0x02, seq := some 0x05, payload := [0x01] }, []) := by
  exact ⟨rfl, rfl⟩

/-- V3's frame with one bit of the checksum changed is no frame. -/
theorem test_read_frame_wrong_checksum :
    readFrame (params false) [0xFF, 0xFF, 0x02, 0x02, 0x02, 0x01, 0xF9] = .error (.wrongChecksum 0xF9) := by rfl

/-- The operation of a table word is the one the next step selects. -/
theorem test_fetch_word_is_selected :
    ∀ n ∈ List.range 10, (State.reset.withFetchWord 8 n).fetch.toOption = decodeTableWord 8 n := by decide

/-- Every operation placed so completes at the next edge. -/
theorem test_fetch_word_steps :
    ∀ n ∈ List.range 10, (nextOf (step (State.reset.withFetchWord 8 n))).isSome = true := by decide

/-! ## The operations -/

/-- V4, S = 0 and S = 1: a payload byte equal to a marker, carry discarded. -/
theorem test_build_ack_v4 :
    emittedBytes (exec (.buildAck 0x02 0x20 0x06 [0xFF, 0x00, 0x00, 0x01]) (ready .idle)) =
        some ([0xFF, 0xFF, 0x02, 0x20, 0x05, 0xFF, 0x00, 0x00, 0x01, 0xD8],
          [false, false, false, false, false, false, false, false, false, true]) ∧
      emittedBytes (exec (.buildAck 0x02 0x20 0x06 [0xFF, 0x00, 0x00, 0x01]) (withSeq (ready .idle))) =
        some ([0xFF, 0xFF, 0x02, 0x20, 0x06, 0x05, 0xFF, 0x00, 0x00, 0x01, 0xD2],
          [false, false, false, false, false, false, false, false, false, false, true]) := by decide

/-- V9: the sum is exactly FF and the checksum 00. -/
theorem test_build_ack_v9 :
    emittedBytes (exec (.buildAck 0xF0 0x0D 0x00 [0x00]) (ready .idle)) =
      some ([0xFF, 0xFF, 0xF0, 0x0D, 0x02, 0x00, 0x00], [false, false, false, false, false, false, true]) := by decide

/-- V2, S = 0 and S = 1: the shortest frame, no-ack marker. -/
theorem test_build_noack_v2 :
    emittedBytes (exec (.buildNoack 0x00 0x01 0x37 []) (ready .idle)) =
        some ([0xFF, 0xFE, 0x00, 0x01, 0x01, 0xFD], [false, false, false, false, false, true]) ∧
      emittedBytes (exec (.buildNoack 0x00 0x01 0x37 []) (withSeq (ready .idle))) =
        some ([0xFF, 0xFE, 0x00, 0x01, 0x37, 0x01, 0xC6], [false, false, false, false, false, false, true]) := by
  decide

/-- The registers after V5, S = 0 (program P1's end state). -/
theorem test_build_noack_v5_registers :
    registers (exec (.buildNoack 0x02 0x30 0x07 [0x20, 0x01, 0x68, 0x01]) (ready .idle)) =
      some (.idle, [0x02, 0x30, 0x07], false, [0x04, 0x00, 0xC1]) := by decide

/-- A2: every stale value is overwritten. -/
theorem test_accept_a2 :
    registers (exec .accept { ready .idle with
      didR := 0x02, cidR := 0x30, seqR := 0x07, lenR := 0x04, sum := 0xC1,
      req := [{ did := 0x00, cid := 0x01, seq := 0x00, ack := true, len := 0x00 }] }) =
      some (.mka, [0x00, 0x01, 0x00], true, [0x00, 0x00, 0x00]) := by decide

/-- A4: `len = 255` faults and latches nothing. -/
theorem test_accept_a4 :
    registers (exec .accept { ready .idle with
      didR := 0x02, cidR := 0x51, seqR := 0x02, ackR := true, lenR := 0xFE, sum := 0xD5,
      req := [{ did := 0x02, cid := 0x51, seq := 0x03, ack := true, len := 0xFF }] }) =
      some (.fault, [0x02, 0x51, 0x02], true, [0xFE, 0x00, 0xD5]) := by decide

/-- M1. -/
theorem test_emit_mka_m1 :
    nextOf (exec .emitMka (ready .mka)) =
      some { ready .mka with out := [{ data := 0xFF, last := false }], phase := .mkb } := by decide

/-- M2: the sink is not ready. -/
theorem test_emit_mka_m2 : nextOf (exec .emitMka (stalled (ready .mka))) = some (stalled (ready .mka)) := by decide

/-- M3: ack-required marker. -/
theorem test_emit_mkb_m3 :
    emittedBytes (exec .emitMkb { ready .mkb with ackR := true }) = some ([0xFF], [false]) := by decide

/-- M4: no-ack marker, `sum` unchanged. -/
theorem test_emit_mkb_m4 :
    nextOf (exec .emitMkb (ready .mkb)) =
      some { ready .mkb with out := [{ data := 0xFE, last := false }], phase := .did } := by decide

/-- M5. -/
theorem test_emit_did_m5 :
    nextOf (exec .emitDid { ready .did with didR := 0x02 }) =
      some { ready .did with didR := 0x02, out := [{ data := 0x02, last := false }], sum := 0x02, phase := .cid } := by
  decide

/-- M7: LEN for S = 0, SEQ for S = 1. -/
theorem test_emit_cid_m7 :
    registers (exec .emitCid { ready .cid with cidR := 0x30, sum := 0x02 }) =
        some (.len, [0x00, 0x30, 0x00], false, [0x00, 0x00, 0x32]) ∧
      registers (exec .emitCid (withSeq { ready .cid with cidR := 0x30, sum := 0x02 })) =
        some (.seq, [0x00, 0x30, 0x00], false, [0x00, 0x00, 0x32]) := by decide

/-- M8: the carry is discarded. -/
theorem test_emit_cid_m8 :
    registers (exec .emitCid { ready .cid with cidR := 0xFF, sum := 0xFF }) =
      some (.len, [0x00, 0xFF, 0x00], false, [0x00, 0x00, 0xFE]) := by decide

/-- M9. -/
theorem test_emit_seq_m9 :
    registers (exec .emitSeq (withSeq { ready .seq with seqR := 0x07, sum := 0x32 })) =
      some (.len, [0x00, 0x00, 0x07], false, [0x00, 0x00, 0x39]) := by decide

/-- M10: the carry is discarded, and the byte written is FF. -/
theorem test_emit_seq_m10 :
    nextOf (exec .emitSeq (withSeq { ready .seq with seqR := 0xFF, sum := 0xFE })) =
      some (withSeq { ready .len with seqR := 0xFF, sum := 0xFD, out := [{ data := 0xFF, last := false }] }) := by decide

/-- M12: the payload is skipped. -/
theorem test_emit_len_m12 :
    nextOf (exec .emitLen { ready .len with sum := 0x01 }) =
      some { ready .chk with sum := 0x02, out := [{ data := 0x01, last := false }] } := by decide

/-- M13: the longest payload. -/
theorem test_emit_len_m13 :
    nextOf (exec .emitLen { ready .len with lenR := 0xFE, rem := 0xFE, sum := 0x53 }) =
      some { ready .pay with
        lenR := 0xFE, rem := 0xFE, sum := 0x52, out := [{ data := 0xFF, last := false }] } := by decide

/-- M15: the last payload byte. -/
theorem test_emit_pay_m15 :
    nextOf (exec .emitPay { ready .pay with rem := 0x01, sum := 0xC0, pay := [0x01] }) =
      some { ready .chk with rem := 0x00, sum := 0xC1, out := [{ data := 0x01, last := false }] } := by decide

/-- M17: the sink is not ready; the byte is offered on OUT and not taken from PAY. -/
theorem test_emit_pay_m17 :
    let s := stalled { ready .pay with rem := 0x02, sum := 0x10, pay := [0xFF] }
    nextOf (exec .emitPay s) = some s ∧ s.outValid = true ∧ s.outData = some 0xFF ∧ s.plReady = false := by decide

/-- M19: 3E with `last = 1`, the data registers unchanged. -/
theorem test_emit_chk_m19 :
    nextOf (exec .emitChk { ready .chk with didR := 0x02, sum := 0xC1 }) =
      some { ready .idle with didR := 0x02, sum := 0xC1, out := [{ data := 0x3E, last := true }] } := by decide

/-- M22: the sink is not ready; 3E is offered with `last = 1`. -/
theorem test_emit_chk_m22 :
    let s := stalled { ready .chk with sum := 0xC1 }
    nextOf (exec .emitChk s) = some s ∧ s.outValid = true ∧ s.outData = some 0x3E ∧ s.outLast = true := by decide

/-- X2: a faulted block does nothing, with a request and a byte offered. -/
theorem test_faulted_x2 :
    let s := { ready .fault with req := [{ did := 1, cid := 2, seq := 3, ack := true, len := 1 }], pay := [0xAA] }
    nextOf (step s) = some s ∧ s.faultOut = true ∧ s.busy = false := by decide

/-- X3: RESET leaves FAULT. -/
theorem test_reset_x3 :
    registers (step (inReset { ready .fault with didR := 0x02, lenR := 0xFE, sum := 0xD5 })) =
      some (.idle, [0x00, 0x00, 0x00], false, [0x00, 0x00, 0x00]) := by decide

/-- X6, P5: RESET wins over a handshake that would complete; PAY and OUT keep their contents. -/
theorem test_reset_x6 :
    nextOf (step (inReset { ready .pay with
      rem := 0x03, sum := 0x2C, pay := [0x00, 0x00, 0x01], out := [{ data := 0xFF, last := false }] })) =
      some (inReset { ready .idle with
        pay := [0x00, 0x00, 0x01], out := [{ data := 0xFF, last := false }] }) := by decide

/-! ## The upstream environment -/

/-- P-1 to P-4: big-endian scalars, and the wrap. -/
theorem test_scalar_vectors :
    Upstream.scalar 2 0x0168 = [0x01, 0x68] ∧ Upstream.scalar 4 0x00E00000 = [0x00, 0xE0, 0x00, 0x00] ∧
      Upstream.scalar 2 0x12345 = [0x23, 0x45] ∧ Upstream.scalar 1 0x100 = [0x00] := by decide

/-- P-5, P-6: the leveling flags. -/
theorem test_leveling_flags :
    Upstream.LevelingFlags.preset.byte = 0x0B ∧
      Upstream.LevelingFlags.byte { start := true, rotate := true, sleep := true, controlSystem := true } = 0x0F := by
  decide

/-- The preset is the caller's to supply; the leveling payload of V15. -/
theorem test_leveling_preset_by_caller :
    Upstream.encodePayload (Upstream.leveling (Upstream.LevelingFlags.fromCaller .preset none) 0x1E 0x0A 0x05) =
      .ok [0x0B, 0x1E, 0x0A, 0x05] := by rfl

/-- E1, E2, E3: the four pseudo-operations of R75 expand to one BUILD with the payload the source gives. -/
theorem test_pseudo_operations :
    (Upstream.setStabilization true).toInstr { seq := 5, ack := true } =
        .ok (.buildAck (Config.didOf "setStabilization") (Config.cidOf "setStabilization") 5 [0x01]) ∧
      (Upstream.setRgb 0xFF0000 true).toInstr { seq := 6, ack := true } =
        .ok (.buildAck (Config.didOf "setRGB") (Config.cidOf "setRGB") 6 [0xFF, 0x00, 0x00, 0x01]) ∧
      (Upstream.rollOperation 0x20 0x0168 0x01).toInstr { seq := 7, ack := false } =
        .ok (.buildNoack (Config.didOf "roll") (Config.cidOf "roll") 7 [0x20, 0x01, 0x68, 0x01]) := by
  exact ⟨rfl, rfl, rfl⟩

/-- E4: 255 bytes make no frame. -/
theorem test_save_macro_255 :
    (Upstream.saveMacro (List.replicate 255 0)).toInstr { seq := 0, ack := true } =
      .error (.payloadTooLarge 255 254) := by
  simp only [Upstream.saveMacro, Upstream.Operation.toInstr, Upstream.encodePayload, Upstream.macroUpload,
    Upstream.Blob.encode, Upstream.capped, List.length_replicate]
  rfl

/-- P-10: one byte above the fragment's cap. -/
theorem test_fragment_cap_refused :
    Upstream.encodePayload (Upstream.fragmentUpload 0 (List.replicate 254 0)) = .error (.payloadTooLarge 254 253) := by
  simp only [Upstream.encodePayload, Upstream.fragmentUpload, Upstream.Blob.encode, Upstream.capped,
    List.length_replicate]
  rfl

/-- P-11 (V12, V13): nine bytes without the second mask, thirteen with it. -/
theorem test_streaming_lengths :
    Upstream.encodePayload (Upstream.streaming 0x000A 1 0xE000 0 none) =
        .ok [0x00, 0x0A, 0x00, 0x01, 0x00, 0x00, 0xE0, 0x00, 0x00] ∧
      Upstream.encodePayload (Upstream.streaming 0x000A 1 0xE000 0 (some 0x800000)) =
        .ok [0x00, 0x0A, 0x00, 0x01, 0x00, 0x00, 0xE0, 0x00, 0x00, 0x00, 0x80, 0x00, 0x00] := by
  exact ⟨rfl, rfl⟩

/-- The lengths R127 to R136 give for the rows of the document's table. -/
theorem test_row_sizes :
    [Upstream.layoutSetter1, Upstream.layoutSetter2, Upstream.layoutColor, Upstream.layoutRoll,
        Upstream.layoutRawMotors, Upstream.layoutLeveling, Upstream.layoutStreaming, Upstream.layoutCollision,
        Upstream.layoutLocator].map Upstream.PayloadLayout.maxSize = [1, 2, 4, 4, 4, 4, 13, 6, 7] := by decide

/-- The arguments of each row are of its layout. -/
theorem test_rows_fit (a b c d e f : Int) (p : Bool) (g : Upstream.LevelingFlags) (m : Option Int) :
    (Upstream.setterBool p).layout = Upstream.layoutSetter1 ∧ (Upstream.setter2 a).layout = Upstream.layoutSetter2 ∧
      (Upstream.color a p).layout = Upstream.layoutColor ∧ (Upstream.roll a b c).layout = Upstream.layoutRoll ∧
      (Upstream.rawMotors a b c d).layout = Upstream.layoutRawMotors ∧
      (Upstream.leveling g a b c).layout = Upstream.layoutLeveling ∧
      (Upstream.streaming a b c d m).layout = Upstream.layoutStreaming ∧
      (Upstream.collision a b c d e f).layout = Upstream.layoutCollision ∧
      (Upstream.locator a b c d).layout = Upstream.layoutLocator := by
  exact ⟨rfl, rfl, rfl, rfl, rfl, rfl, rfl, rfl, rfl⟩

/-! ## Witnesses: states and operands that meet the hypotheses of each statement -/

/-- A request with a given length. -/
def request (len : Byte) : Request := { did := 0x02, cid := 0x51, seq := 0x10, ack := true, len := len }

/-- An idle block with one request of a given length queued, and payload bytes enough for it. -/
def offered (len : Byte) : State := { ready .idle with req := [request len], pay := List.replicate len.toNat 0xAA }

/-- V5 on its way, S = 1: the phase, what was consumed, `rem`, `sum`, and how many bytes of its frame OUT holds. -/
def midV5 (p : Phase) (rem sum : Byte) (written : Nat) : State :=
  { withSeq (ready p) with
    didR := 0x02
    cidR := 0x30
    seqR := 0x07
    lenR := 0x04
    rem := rem
    sum := sum
    pay := [0x20, 0x01, 0x68, 0x01].drop (4 - rem.toNat)
    out := untagged ([0xFF, 0xFE, 0x02, 0x30, 0x07, 0x05, 0x20, 0x01, 0x68, 0x01].take written) }

/-- An environment that stalls the sink and the producer, then lets them go on, and then offers one more request. -/
def pacing : List EnvMove :=
  [{ pins := { rst := false, reqValid := false, plValid := false, outReady := false }
     reqs := { flush := false, add := [] }
     pays := { flush := false, add := [] } },
   { pins := Pins.willing
     reqs := { flush := false, add := [request 1] }
     pays := { flush := false, add := [0x55] } }]

/-- Each phase's operation is what the decoder reads, and so is RESET. -/
theorem witness_StepRunsDecodedOperation :
    decode (if (ready .pay).pins.rst then .rst true else .phase (ready .pay).phase.code) = .ok .emitPay ∧
      decode (if (inReset (ready .pay)).pins.rst then .rst true else .phase (ready .pay).phase.code) = .ok .reset := by
  exact ⟨rfl, rfl⟩

/-- The unused codes, at both ends. -/
theorem witness_OperationWordsDecode : 10 ≤ (10 : BitVec 4).toNat ∧ 10 ≤ (15 : BitVec 4).toNat := by decide

/-- Both clauses: the absent phase, and three states outside it. -/
theorem witness_StepStopsOnlyInAbsentSeq :
    ((ready .seq).pins.rst = false ∧ (ready .seq).phase = .seq ∧ (ready .seq).inst.seqInFrame = false) ∧
      (∀ s ∈ [withSeq (ready .seq), ready .len, inReset (ready .seq)],
        ¬(s.pins.rst = false ∧ s.phase = .seq ∧ s.inst.seqInFrame = false)) := by decide

/-- Every phase of an instance with a sequence byte, willing, stalled and in reset, has a next state. -/
theorem witness_PhaseTransitionTable :
    ∀ p ∈ [Phase.idle, .mka, .mkb, .did, .cid, .seq, .len, .pay, .chk, .fault],
      ∀ s ∈ [withSeq (ready p), stalled (withSeq (ready p)), inReset (ready p)], (nextOf (step s)).isSome = true := by
  decide

/-- The four kinds of hold. -/
theorem witness_HoldEdgeChangesNothing :
    ((ready .idle).phase = .idle ∧ (ready .idle).reqPort = none) ∧
      ((stalled (ready .mka)).phase ≠ .idle ∧ (stalled (ready .mka)).phase ≠ .pay ∧
        (stalled (ready .mka)).phase ≠ .fault ∧ (stalled (ready .mka)).pins.outReady = false) ∧
      ((ready .pay).phase = .pay ∧ (ready .pay).plPort = none) ∧
      (stalled { ready .pay with pay := [1] }).pins.outReady = false ∧
      (ready .fault).phase = .fault ∧ (withSeq (stalled (ready .seq))).inst.seqInFrame = true := by decide

/-- An edge with a handshake on each stream, and one with none. -/
theorem witness_StreamsMoveByHandshakesOnly :
    ∀ s ∈ [offered 1, midV5 .pay 4 0x3E 6, midV5 .chk 0 0xC8 10, ready .idle, inReset (midV5 .pay 4 0x3E 6)],
      ∃ i, s.fetch = .ok i ∧ (nextOf (exec i s)).isSome = true := by
  intro s hs
  simp only [List.mem_cons, List.not_mem_nil, or_false] at hs
  obtain rfl | rfl | rfl | rfl | rfl := hs <;> exact ⟨_, rfl, by decide⟩

/-- Both clauses, and lengths 0, 254 and 255. -/
theorem witness_ResetThenFaultThenLatch :
    (inReset (offered 255)).pins.rst = true ∧ (offered 255).reqHandshake = some (request 255) ∧
      (offered 254).reqHandshake = some (request 254) ∧ (offered 0).reqHandshake = some (request 0) := by
  exact ⟨rfl, rfl, rfl, rfl⟩

/-- Both clauses: a request of length 0, 254 or 255 offered; and each way of not taking one. -/
theorem witness_AcceptTakesTheRequest :
    (∀ n ∈ [(0 : Byte), 254, 255], (offered n).phase = .idle ∧ (offered n).pins.rst = false ∧
        (offered n).pins.reqValid = true ∧ (offered n).req = request n :: []) ∧
      (ready .mkb).phase ≠ .idle ∧ (inReset (offered 1)).pins.rst = true ∧ State.reset.pins.reqValid = false ∧
      (ready .idle).req = [] := by
  refine ⟨fun n _ => ⟨rfl, rfl, rfl, rfl⟩, by decide, rfl, rfl, rfl⟩

/-- All four clauses, and each way of not completing. -/
theorem witness_EmitMarkersWriteTheMarkers :
    (∀ p ∈ [Phase.mka, .mkb], (ready p).phase = p ∧ (ready p).pins.rst = false ∧ (ready p).pins.outReady = true) ∧
      (ready .idle).phase ≠ .mka ∧ (ready .idle).phase ≠ .mkb ∧ (inReset (ready .mka)).pins.rst = true ∧
      (stalled (ready .mkb)).pins.outReady = false := by decide

/-- All four clauses, S = 0 and S = 1. -/
theorem witness_EmitIdentifiersWriteAndSum :
    (∀ p ∈ [Phase.did, .cid], ∀ s ∈ [ready p, withSeq (ready p)],
        s.phase = p ∧ s.pins.rst = false ∧ s.pins.outReady = true) ∧
      (ready .idle).phase ≠ .did ∧ (ready .idle).phase ≠ .cid ∧ (inReset (ready .did)).pins.rst = true ∧
      (stalled (ready .cid)).pins.outReady = false := by decide

/-- All three clauses. -/
theorem witness_EmitSeqWritesAndSums :
    ((withSeq (ready .seq)).inst.seqInFrame = true ∧ (withSeq (ready .seq)).phase = .seq ∧
        (withSeq (ready .seq)).pins.rst = false ∧ (withSeq (ready .seq)).pins.outReady = true) ∧
      (withSeq (ready .len)).phase ≠ .seq ∧ (inReset (withSeq (ready .seq))).pins.rst = true ∧
      (stalled (withSeq (ready .seq))).pins.outReady = false ∧
      ((ready .cid).inst.seqInFrame = false ∧ (ready .cid).phase ≠ .seq ∧
        (nextOf (step (ready .cid))).isSome = true) := by decide

theorem witness_EmitSeqAbsentWithoutSequenceByte : (ready .seq).inst.seqInFrame = false := by decide

/-- Lengths 0 and 254, `rem` 0 and 254; and each way of not completing. -/
theorem witness_EmitLenWritesLengthPlusOne :
    (∀ n ∈ [(0 : Byte), 254], ∀ s ∈ [{ ready .len with lenR := n, rem := n }],
        s.phase = .len ∧ s.lenR ≠ 255 ∧ s.pins.rst = false ∧ s.pins.outReady = true) ∧
      (ready .pay).phase ≠ .len ∧ (inReset (ready .len)).pins.rst = true ∧
      (stalled (ready .len)).pins.outReady = false := by decide

/-- `rem` 1, 2 and 254; and each way of not completing. -/
theorem witness_EmitPayCopiesOneByte :
    (∀ n ∈ [(1 : Byte), 2, 254], ∀ s ∈ [{ ready .pay with rem := n, pay := [0xFF, 0x01] }],
        s.phase = .pay ∧ s.rem ≠ 0 ∧ s.pins.rst = false ∧ s.pins.outReady = true ∧ s.pins.plValid = true ∧
          s.pay = 0xFF :: [0x01]) ∧
      (ready .chk).phase ≠ .pay ∧ (inReset (ready .pay)).pins.rst = true ∧
      (stalled (ready .pay)).pins.outReady = false ∧ State.reset.pins.plValid = false ∧ (ready .pay).pay = [] := by
  decide

/-- Both corners. -/
theorem witness_OpenValuesStayInTheirPlace :
    (∀ s ∈ [{ ready .len with lenR := 255 }],
        s.phase = .len ∧ s.lenR = 255 ∧ s.pins.rst = false ∧ s.pins.outReady = true) ∧
      (∀ s ∈ [{ ready .pay with pay := [0xFF] }],
        s.phase = .pay ∧ s.rem = 0 ∧ s.pins.rst = false ∧ s.pins.outReady = true ∧ s.pins.plValid = true ∧
          s.pay = 0xFF :: []) := by decide

theorem witness_EmitChkWritesTheComplement :
    ((ready .chk).phase = .chk ∧ (ready .chk).pins.rst = false ∧ (ready .chk).pins.outReady = true) ∧
      (ready .idle).phase ≠ .chk ∧ (inReset (ready .chk)).pins.rst = true ∧
      (stalled (ready .chk)).pins.outReady = false := by decide

theorem witness_FaultedDoesNothing : (ready .fault).phase = .fault ∧ (ready .fault).pins.rst = false := by decide

/-- RESET in every phase; and the last clause, in FAULT. -/
theorem witness_ResetClearsEveryRegister :
    (∀ p ∈ [Phase.idle, .mka, .mkb, .did, .cid, .seq, .len, .pay, .chk, .fault],
        (inReset (ready p)).pins.rst = true) ∧
      (ready .fault).pins.rst = false ∧ (ready .fault).phase = .fault ∧
      nextOf (step (ready .fault)) = some (ready .fault) := by decide

/-- Payload lengths 0 and 254. -/
theorem witness_BuildWritesItsFrame :
    ((ready .idle).phase = .idle ∧ (ready .idle).pins.rst = false ∧ (ready .idle).req = [] ∧ (ready .idle).pay = []) ∧
      ([] : List Byte).length ≤ 254 ∧ (List.replicate 254 (0xAA : Byte)).length ≤ 254 := by
  refine ⟨by decide, by decide, by rw [List.length_replicate]⟩

/-- Stale bytes in PAY. -/
theorem witness_SurplusBytesGoToTheNextRequest :
    ∀ s ∈ [{ ready .idle with pay := [0x00, 0x00, 0x01] }],
      s.phase = .idle ∧ s.pins.rst = false ∧ s.req = [] ∧ ([0x41] : List Byte).length ≤ 254 := by decide

theorem witness_BuildOf255BytesFaults :
    (ready .idle).phase = .idle ∧ (ready .idle).pins.rst = false ∧ (ready .idle).req = [] ∧
      (List.replicate 255 (0x55 : Byte)).length = 255 := by
  refine ⟨rfl, rfl, rfl, by rw [List.length_replicate]⟩

/-- Payload lengths 0 and 255; busy, faulted, in reset, and behind an older request. -/
theorem witness_BuildWaitsItsTurn :
    ([] : List Byte).length ≤ 255 ∧ (List.replicate 255 (0x55 : Byte)).length ≤ 255 ∧ (ready .mka).phase ≠ .idle ∧
      (ready .fault).phase ≠ .idle ∧ (inReset (ready .idle)).pins.rst = true ∧ (offered 1).req ≠ [] := by
  refine ⟨by decide, by rw [List.length_replicate], by decide, by decide, by decide, by decide⟩

theorem witness_BuildBeyond255BytesRefused : 255 < (List.replicate 256 (0 : Byte)).length := by
  rw [List.length_replicate]
  decide

/-- Each EMIT step, completing. -/
theorem witness_EmitStepsFrame :
    ∀ i ∈ [Instr.emitMka, .emitMkb, .emitDid, .emitCid, .emitSeq, .emitLen, .emitPay, .emitChk],
      (nextOf (exec i (State.reset.readyFor i))).isSome = true ∧
        nextOf (exec i (State.reset.readyFor i)) ≠ some (State.reset.readyFor i) := by decide

/-- Each of the other operations has a next state, behind an older request and (BUILD, with stale bytes) taken next. -/
theorem witness_RequestAndSystemFrame :
    (∀ i ∈ [Instr.accept, .faulted, .reset, .buildAck 1 2 3 [4], .buildNoack 1 2 3 [4]],
        (nextOf (exec i (offered 1))).isSome = true) ∧
      ∀ s ∈ [{ ready .idle with pay := [0x11] }],
        s.phase = .idle ∧ s.pins.rst = false ∧ s.req = [] ∧
          (nextOf (exec (.buildAck 1 2 3 [4]) s)).isSome = true ∧
          (nextOf (exec (.buildNoack 1 2 3 (List.replicate 255 0x55)) s)).isSome = true := by
  refine ⟨by decide, fun s hs => ?_⟩
  obtain rfl := List.mem_singleton.mp hs
  refine ⟨rfl, rfl, rfl, rfl, ?_⟩
  simp only [exec, execBuildNoack, State.build, requestOf, List.length_replicate]
  rfl

/-- Runs of no edge and of three. -/
theorem witness_ParametersNeverChange :
    (nextOf (runEdges 0 (offered 1))).isSome = true ∧ (nextOf (runEdges 3 (offered 1))).isSome = true := by decide

/-- The three clauses: an edge that takes nothing, one that takes a request (of 254 and of 255 bytes), one in reset. -/
theorem witness_LatchesWrittenByAcceptAndResetOnly :
    ((nextOf (step (ready .mka))).isSome = true ∧ (ready .mka).pins.rst = false ∧ (ready .mka).reqHandshake = none) ∧
      (offered 254).reqHandshake = some (request 254) ∧ (offered 255).reqHandshake = some (request 255) ∧
      (inReset (offered 1)).pins.rst = true := by
  refine ⟨by decide, rfl, rfl, rfl⟩

/-- Every phase, at lengths 0 and 254. -/
theorem witness_OutputsPerPhase :
    ∀ p ∈ [Phase.idle, .mka, .mkb, .did, .cid, .seq, .len, .pay, .chk, .fault],
      ∀ n ∈ [(0 : Byte), 254], ({ ready p with lenR := n } : State).lenR ≠ 255 ∧ (ready .pay).phase = .pay := by decide

/-- A byte offered and not taken: in CHK, and in PAY with the producer keeping its offer. -/
theorem witness_OfferedByteIsStable :
    (∀ s ∈ [stalled (ready .chk), stalled { ready .pay with rem := 2, pay := [0xFF] }],
        nextOf (step s) = some s ∧ s.pins.rst = false ∧ s.outValid = true ∧ s.outHandshake = none) ∧
      ∀ s ∈ [stalled { ready .pay with rem := 2, pay := [0xFF] }], s.phase = .pay ∧ s.offersKept s := by
  refine ⟨by decide, fun s _ => ?_⟩
  simp_all [stalled, ready, State.offersKept]

/-- Lengths 0 and 254. -/
theorem witness_FrameLengthInvariant :
    (([] : List Byte).length ≤ 254 ∧ (request 0).len = BitVec.ofNat 8 ([] : List Byte).length) ∧
      (List.replicate 254 (0xAA : Byte)).length ≤ 254 ∧
      (request 254).len = BitVec.ofNat 8 (List.replicate 254 (0xAA : Byte)).length := by
  simp only [List.length_replicate]
  decide

/-- A payload and a permutation of it that is another list. -/
theorem witness_ChecksumConsequences : ([1, 2] : List Byte).Perm [2, 1] ∧ ([1, 2] : List Byte) ≠ [2, 1] := by decide

/-- Lengths 0 and 254, both values of S, and an offset inside the payload. -/
theorem witness_FrameOffsetMap :
    ((request 0).len ≠ 255 ∧ ([] : List Byte).length = (request 0).len.toNat) ∧ (request 254).len ≠ 255 ∧
      (List.replicate 254 (0xAA : Byte)).length = (request 254).len.toNat ∧ (params true).seqInFrame = true ∧
      253 < (List.replicate 254 (0xAA : Byte)).length := by
  simp only [List.length_replicate]
  decide

theorem witness_SequenceNumberReachesTwoBytes :
    (params false).seqInFrame = false ∧ (params true).seqInFrame = true ∧ (request 4).seq ≠ 0x08 ∧ 5 ≠ 4 ∧
      5 ≠ 6 + ([1, 2] : List Byte).length := by decide

theorem witness_AcknowledgeFlagReachesByteOneOnly : (params false).ok = true ∧ (params true).ok = true := by decide

/-- Lengths 0 and 254, both values of S. -/
theorem witness_ReadFrameInvertsFrame :
    (params false).ok = true ∧ (params true).ok = true ∧
      ((request 0).len ≠ 255 ∧ ([] : List Byte).length = (request 0).len.toNat) ∧ (request 254).len ≠ 255 ∧
      (List.replicate 254 (0xAA : Byte)).length = (request 254).len.toNat := by
  simp only [List.length_replicate]
  decide

/-- V1's frame with two bytes after it, S = 1. -/
theorem witness_ReadFrameAcceptsFramesOnly :
    readFrame (params true) [0xFF, 0xFF, 0x00, 0x01, 0x00, 0x01, 0xFD, 0x12, 0x34] =
      .ok ({ ack := true, did := 0x00, cid := 0x01, seq := some 0x00, payload := [] }, [0x12, 0x34]) := by rfl

/-- Every operation. -/
theorem witness_DecodeInvertsEncode :
    ∀ i ∈ [Instr.buildAck 1 2 3 [4], .buildNoack 1 2 3 [], .accept, .emitMka, .emitMkb, .emitDid, .emitCid, .emitSeq,
        .emitLen, .emitPay, .emitChk, .faulted, .reset], WellFormed (params true) i = true := by decide

/-- The three kinds of code. -/
theorem witness_EncodeInvertsDecode :
    decode (.phase 5) = .ok .emitSeq ∧ (params true).seqInFrame = true ∧ decode (.rst true) = .ok .reset ∧
      decode (.request (request 1) [0x41]) = .ok (.buildAck 0x02 0x51 0x10 [0x41]) := by exact ⟨rfl, rfl, rfl, rfl⟩

/-- V5 in every phase of a frame, with S = 1; and the shortest and the longest frame begun. -/
theorem witness_inFrame :
    (midV5 .mka 4 0x00 0).inFrame [] [] ∧ (midV5 .mkb 4 0x00 1).inFrame [] [] ∧
      (midV5 .did 4 0x00 2).inFrame [] [] ∧ (midV5 .cid 4 0x02 3).inFrame [] [] ∧
      (midV5 .seq 4 0x32 4).inFrame [] [] ∧ (midV5 .len 4 0x39 5).inFrame [] [] ∧
      (midV5 .pay 4 0x3E 6).inFrame [] [] ∧ (midV5 .pay 1 0xC7 9).inFrame [] [0x20, 0x01, 0x68] ∧
      (midV5 .chk 0 0xC8 10).inFrame [] [0x20, 0x01, 0x68, 0x01] ∧
      ({ ready .mka with lenR := 0, rem := 0 } : State).inFrame [] [] ∧
      ({ ready .mka with lenR := 254, rem := 254 } : State).inFrame [] [] := by
  unfold State.inFrame State.remAgrees
  refine ⟨?_, ?_, ?_, ?_, ?_, ?_, ?_, ?_, ?_, ?_, ?_⟩
  · exact ⟨by decide, ⟨by decide, rfl⟩, by decide, by decide⟩
  · exact ⟨by decide, ⟨by decide, rfl⟩, by decide, by decide⟩
  · exact ⟨by decide, ⟨by decide, rfl⟩, by decide, by decide⟩
  · exact ⟨by decide, ⟨by decide, rfl⟩, by decide, by decide⟩
  · exact ⟨by decide, ⟨by decide, rfl, rfl⟩, by decide, by decide⟩
  · exact ⟨by decide, ⟨by decide, rfl⟩, by decide, by decide⟩
  · exact ⟨by decide, ⟨by decide, by show 1 ≤ 4; decide⟩, by decide, by decide⟩
  · exact ⟨by decide, ⟨by decide, by show 1 ≤ 1; decide⟩, by decide, by decide⟩
  · exact ⟨by decide, ⟨by decide, rfl⟩, by decide, by decide⟩
  · exact ⟨by decide, ⟨by decide, rfl⟩, by decide, by decide⟩
  · exact ⟨by decide, ⟨by decide, rfl⟩, by decide, by decide⟩

/-- Each way of meeting the invariant, and an edge in reset. -/
theorem witness_EveryStepKeepsTheInvariant :
    State.reset.inv ∧ (ready .fault).inv ∧ (midV5 .pay 1 0xC7 9).inv ∧ (inReset (ready .pay)).pins.rst = true ∧
      (nextOf (step (midV5 .pay 1 0xC7 9))).isSome = true := by
  refine ⟨.inl rfl, .inr (.inl rfl), .inr (.inr ⟨_, _, witness_inFrame.2.2.2.2.2.2.2.1⟩), rfl, by decide⟩

theorem witness_AcceptStartsAFrame :
    ((offered 0).reqHandshake = some (request 0) ∧ (request 0).len ≠ 255) ∧
      (offered 254).reqHandshake = some (request 254) ∧ (request 254).len ≠ 255 := by
  exact ⟨⟨rfl, by decide⟩, rfl, by decide⟩

/-- In PAY and at the checksum. -/
theorem witness_FrameAdvancesByOneEdge :
    ((midV5 .pay 1 0xC7 9).inFrame [] [0x20, 0x01, 0x68] ∧ (midV5 .pay 1 0xC7 9).pins.rst = false) ∧
      (midV5 .chk 0 0xC8 10).inFrame [] [0x20, 0x01, 0x68, 0x01] ∧ (midV5 .chk 0 0xC8 10).pins.rst = false ∧
      (midV5 .chk 0 0xC8 10).phase = .chk ∧ (midV5 .chk 0 0xC8 10).pins.outReady = true := by
  exact ⟨⟨witness_inFrame.2.2.2.2.2.2.2.1, rfl⟩, witness_inFrame.2.2.2.2.2.2.2.2.1, rfl, rfl, rfl⟩

/-- Lengths 0 and 254, with an environment that stalls. -/
theorem witness_StepsPerformBuildAtAnyPace :
    ∀ n ∈ [(0 : Byte), 254], ∀ s ∈ [{ offered n with env := pacing }],
      s.phase = .idle ∧ s.pins.reqValid = true ∧ s.req = request n :: [] ∧ (request n).len ≠ 255 ∧
        (request n).len.toNat ≤ s.pay.length ∧ s.noReset ∧ s.noFlush := by
  intro n hn s hs
  obtain rfl := List.mem_singleton.mp hs
  have planned : ∀ m ∈ pacing, m.pins.rst = false ∧ m.pays.flush = false := by decide
  refine ⟨rfl, rfl, rfl, ?_, by simp [offered, request], ⟨rfl, fun m hm => (planned m hm).1⟩,
    fun m hm => (planned m hm).2⟩
  simp only [List.mem_cons, List.not_mem_nil, or_false] at hn
  obtain rfl | rfl := hn <;> decide

/-- The last payload byte queued, and two bytes owed of which a planned move supplies the second; the environment stalls
before it lets the frame end. -/
theorem witness_FairFrameCompletes :
    ∀ s ∈ [{ midV5 .pay 1 0xC7 9 with env := pacing }, { midV5 .pay 2 0x5F 8 with pay := [0x68], env := pacing }],
      (∃ p, s.inFrame [] p) ∧ s.noReset ∧ s.noFlush ∧ s.rem.toNat ≤ s.payloadToCome.length ∧
        (s.env.getLast?.map EnvMove.pins).getD s.pins = Pins.willing := by
  intro s hs
  simp only [List.mem_cons, List.not_mem_nil, or_false] at hs
  unfold State.inFrame State.remAgrees State.noReset State.noFlush
  obtain rfl | rfl := hs
  · exact ⟨⟨[0x20, 0x01, 0x68], by decide, ⟨by decide, by show 1 ≤ 1; decide⟩, by decide, by decide⟩, by decide,
      by decide, by decide, by decide⟩
  · exact ⟨⟨[0x20, 0x01], by decide, ⟨by decide, by show 1 ≤ 2; decide⟩, by decide, by decide⟩, by decide,
      by decide, by decide, by decide⟩

/-- Lengths 0 and 254, a second request behind. -/
theorem witness_BestCaseFrameRun :
    ∀ n ∈ [(0 : Byte), 254], ∀ s ∈ [{ offered n with req := [request n, request 3] }],
      s.phase = .idle ∧ s.willing ∧ s.req = request n :: [request 3] ∧ (request n).len ≠ 255 ∧
        (request n).len.toNat ≤ s.pay.length := by
  intro n hn s hs
  obtain rfl := List.mem_singleton.mp hs
  refine ⟨rfl, ⟨rfl, rfl⟩, rfl, ?_, by simp [offered, request]⟩
  simp only [List.mem_cons, List.not_mem_nil, or_false] at hn
  obtain rfl | rfl := hn <;> decide

/-- Lengths 0 and 254, stale bytes in PAY. -/
theorem witness_BuildEqualsItsSteps :
    (∀ s ∈ [{ ready .idle with pay := [0x11] }], s.phase = .idle ∧ s.willing ∧ s.req = []) ∧
      ([] : List Byte).length ≤ 254 ∧ (List.replicate 254 (0xAA : Byte)).length ≤ 254 := by
  refine ⟨fun s hs => ?_, by decide, by rw [List.length_replicate]⟩
  obtain rfl := List.mem_singleton.mp hs
  exact ⟨rfl, ⟨rfl, rfl⟩, rfl⟩

/-- Program P1: three requests and their nine bytes. -/
theorem witness_QueueEndsWellWithItsFrames :
    ∀ s ∈ [{ ready .idle with
        req :=
          [{ did := 0x02, cid := 0x02, seq := 0x05, ack := true, len := 0x01 },
            { did := 0x02, cid := 0x20, seq := 0x06, ack := true, len := 0x04 },
            { did := 0x02, cid := 0x30, seq := 0x07, ack := false, len := 0x04 }]
        pay := [0x01, 0xFF, 0x00, 0x00, 0x01, 0x20, 0x01, 0x68, 0x01] }],
      s.phase = .idle ∧ s.willing ∧ (∀ r ∈ s.req, r.len ≠ 255) ∧
        s.pay.length = (s.req.map fun r => r.len.toNat).sum := by
  intro s hs
  obtain rfl := List.mem_singleton.mp hs
  exact ⟨rfl, ⟨rfl, rfl⟩, by decide, by decide⟩

/-- Two idle states with different registers, and a step of one of them. -/
theorem witness_NothingSurvivesAFrame :
    (offered 1).sameButDead { offered 1 with didR := 0x77, sum := 0x12, rem := 0x05 } ∧
      (midV5 .pay 1 0xC7 9).sameButDead (midV5 .pay 1 0xC7 9) ∧ (nextOf (step (offered 1))).isSome = true := by
  refine ⟨⟨rfl, rfl, rfl, rfl, rfl, rfl, rfl, fun h => absurd rfl h⟩,
    ⟨rfl, rfl, rfl, rfl, rfl, rfl, rfl, fun _ _ => ⟨rfl, rfl, rfl, rfl, rfl, rfl, rfl⟩⟩, rfl⟩

/-- Both sides: a length of 255 taken, one of 254 taken, and an edge in mid-frame. -/
theorem witness_LenFaultExactlyOnLen255 :
    (∀ s ∈ [offered 255, offered 254, midV5 .pay 1 0xC7 9],
        s.phase ≠ .fault ∧ (nextOf (step s)).isSome = true) ∧
      (offered 255).reqPort = some (request 255) ∧ (request 255).len = 255 := by
  refine ⟨fun s hs => ?_, rfl, rfl⟩
  simp only [List.mem_cons, List.not_mem_nil, or_false] at hs
  obtain rfl | rfl | rfl := hs <;> exact ⟨nofun, rfl⟩

theorem witness_LenFaultIsPrecise :
    (offered 255).reqHandshake = some (request 255) ∧ (request 255).len = 255 := by exact ⟨rfl, rfl⟩

theorem witness_FaultLastsUntilReset :
    ∀ s ∈ [{ ready .fault with env := pacing }], s.phase = .fault ∧ s.noReset := by
  intro s hs
  obtain rfl := List.mem_singleton.mp hs
  exact ⟨rfl, rfl, by decide⟩

/-- With and without reset. -/
theorem witness_OnlyResetLeavesFault :
    ∀ s ∈ [ready .fault, inReset (ready .fault)], s.phase = .fault ∧ (nextOf (step s)).isSome = true := by decide

/-- The largest legal length queued, and another request planned. -/
theorem witness_LegalRequestsNeverFault :
    ∀ s ∈ [{ offered 254 with env := pacing }],
      s.phase ≠ .fault ∧ s.legalRequests ∧ (nextOf (step s)).isSome = true := by
  intro s hs
  obtain rfl := List.mem_singleton.mp hs
  exact ⟨nofun, ⟨by decide, by decide⟩, rfl⟩

/-- Vector X7, and an environment that stalls. -/
theorem witness_UnderRunWaitsForEver :
    ∀ s ∈ [{ ready .pay with rem := 1, env := pacing.take 1 }],
      s.phase = .pay ∧ s.pay = [] ∧ s.noReset ∧ ∀ m ∈ s.env, m.pays.add = [] := by
  intro s hs
  obtain rfl := List.mem_singleton.mp hs
  exact ⟨rfl, rfl, ⟨rfl, by decide⟩, by decide⟩

/-- Reset with three payload bytes consumed. -/
theorem witness_ResetCutsTheFrame :
    (inReset (midV5 .pay 1 0xC7 9)).inFrame [] [0x20, 0x01, 0x68] ∧ (inReset (midV5 .pay 1 0xC7 9)).pins.rst = true := by
  unfold State.inFrame State.remAgrees
  exact ⟨⟨by decide, ⟨by decide, by show 1 ≤ 1; decide⟩, by decide, by decide⟩, rfl⟩

/-- A queue with its payload, one more request planned with its byte; and a frame half done. -/
theorem witness_PayloadAccountBalances :
    ∀ s ∈ [{ offered 2 with env := pacing }, { midV5 .pay 1 0xC7 9 with env := pacing }],
      s.inv ∧ s.noReset ∧ s.legalRequests ∧ s.noWithdrawal ∧ s.supplied = s.demand ∧
        (nextOf (step s)).isSome = true := by
  intro s hs
  simp only [List.mem_cons, List.not_mem_nil, or_false] at hs
  unfold State.noReset State.legalRequests State.noWithdrawal
  obtain rfl | rfl := hs
  · exact ⟨.inl rfl, by decide, by decide, by decide, by decide, rfl⟩
  · refine ⟨.inr (.inr ⟨[], [0x20, 0x01, 0x68], ?_⟩), by decide, by decide, by decide, by decide, rfl⟩
    unfold State.inFrame State.remAgrees
    exact ⟨by decide, ⟨by decide, by show 1 ≤ 1; decide⟩, by decide, by decide⟩

/-- A payload the encoder accepts, an operation that becomes a BUILD, and an idle block. -/
theorem witness_EncodedOperationsNeverFault :
    Upstream.encodePayload (Upstream.roll 0x20 0x0168 0x01) = .ok [0x20, 0x01, 0x68, 0x01] ∧
      (Upstream.setStabilization true).toInstr { seq := 5, ack := true } =
        .ok (.buildAck (Config.didOf "setStabilization") (Config.cidOf "setStabilization") 5 [0x01]) ∧
      (ready .idle).phase = .idle ∧ (ready .idle).pins.rst = false ∧ (ready .idle).req = [] := by
  exact ⟨rfl, rfl, rfl, rfl, rfl⟩

/-- The caps, one above each, and an operation whose payload is refused. -/
theorem witness_UploadCapsAreExact :
    (List.replicate 254 (0 : Byte)).length ≤ 254 ∧ 254 < (List.replicate 255 (0 : Byte)).length ∧
      (List.replicate 253 (0 : Byte)).length ≤ 253 ∧ 253 < (List.replicate 254 (0 : Byte)).length ∧
      Upstream.encodePayload (Upstream.saveMacro (List.replicate 255 0)).shape = .error (.payloadTooLarge 255 254) := by
  simp only [Upstream.saveMacro, Upstream.encodePayload, Upstream.macroUpload, Upstream.Blob.encode, Upstream.capped,
    List.length_replicate]
  decide

end Sys2Proof.Tests
end

section
/-! PROOF. No edge and no run writes the parameters of the instance (00_scope.md R5). -/

namespace Sys2Proof.Machine

@[simp] theorem takeRequest_inst (s : State) (r : Request) : (s.takeRequest r).inst = s.inst := by
  by_cases h : r.len = 255
  · rw [takeRequest_illegal h, enterLenFault_inst, popReq_inst]
  · rw [takeRequest_legal h, setPhase_inst, latch_inst, popReq_inst]

/-- A step's result or its hold: the parameters stay when the result has them. -/
theorem ite_clock_inst {s u : State} (c : Prop) [Decidable c] (h : u.inst = s.inst) :
    (if c then u else s).clock.inst = s.inst := by
  by_cases hc : c
  · rw [if_pos hc, clock_inst, h]
  · rw [if_neg hc, clock_inst]

/-- No edge writes the parameters: every operation it can run, its hold and the environment's move leave them. -/
theorem step_inst {s t : State} (h : step s = .next t) : t.inst = s.inst := by
  obtain ⟨-, rfl⟩ | ⟨-, hphase⟩ := step_cases h
  · rw [clock_inst, resetRegs_inst]
  · obtain ⟨-, -, rfl⟩ | ⟨-, r, -, rfl⟩ | ⟨-, rfl⟩ | ⟨-, rfl⟩ | ⟨-, rfl⟩ | ⟨-, rfl⟩ | ⟨-, -, rfl⟩ | ⟨-, rfl⟩ |
      ⟨-, -, rfl⟩ | ⟨-, b, -, rfl⟩ | ⟨-, rfl⟩ | ⟨-, rfl⟩ := hphase
    · exact clock_inst s -- IDLE, no request
    · rw [clock_inst, takeRequest_inst] -- IDLE, a request taken
    · exact ite_clock_inst _ (by simp) -- MKA
    · exact ite_clock_inst _ (by simp) -- MKB
    · exact ite_clock_inst _ (by simp) -- DID
    · exact ite_clock_inst _ (by simp) -- CID
    · exact ite_clock_inst _ (by simp) -- SEQ
    · exact ite_clock_inst _ (by simp) -- LEN
    · exact clock_inst s -- PAY, no byte
    · exact ite_clock_inst _ (by simp) -- PAY, a byte offered
    · exact ite_clock_inst _ (by simp) -- CHK
    · exact clock_inst s -- FAULT

/-- Settles O26, by induction on the number of edges. -/
theorem parametersNeverChange : Obligations.ParametersNeverChange := by
  intro n
  induction n with
  | zero =>
    intro s t h
    cases h
    rfl
  | succ n ih =>
    intro s t h
    obtain ⟨u, hstep, hrun⟩ := run_succ h
    exact (ih u t hrun).trans (step_inst hstep)

end Sys2Proof.Machine
end

section
/-! PROOF. The outputs phase by phase (10_state.md R38). -/

namespace Sys2Proof.Machine

/-- The outputs with the phase put in: what is left to say is `out_data`. -/
theorem outputs_of_phase {s : State} {p : Phase} (hp : s.phase = p) :
    s.outputs =
      { reqReady := p == .idle, plReady := p == .pay && s.pins.outReady, outValid := s.outData.isSome,
        outData := s.outData, outLast := p == .chk, busy := p != .idle && p != .fault, fault := p == .fault } := by
  subst hp
  rfl

theorem outputs_idle {s : State} (hp : s.phase = .idle) :
    s.outputs =
      { reqReady := true, plReady := false, outValid := false, outData := none, outLast := false, busy := false,
        fault := false } := by
  simp [outputs_of_phase hp, State.outData, hp]

theorem outputs_fault {s : State} (hp : s.phase = .fault) :
    s.outputs =
      { reqReady := false, plReady := false, outValid := false, outData := none, outLast := false, busy := false,
        fault := true } := by
  simp [outputs_of_phase hp, State.outData, hp]

/-- The complement as R10 writes it. -/
theorem not8_eq_sub (a : Byte) : not8 a = 255 - a := by
  unfold not8
  bv_omega

/-- For a legal length the byte EMIT_LEN offers is `L + 1`. -/
theorem lengthByte_of_ne {s : State} (h : s.lenR ≠ 255) : s.lengthByte = s.lenR + 1 := inc8_of_ne h

/-- In PAY a byte passes both channels at the same edge, or neither (R38). -/
theorem plHandshake_eq_outHandshake {s : State} (hp : s.phase = .pay) : s.plHandshake = s.outHandshake := by
  simp [State.plHandshake, State.outHandshake, State.plReady, State.outData, hp]

/-- Settles O28, phase by phase. -/
theorem outputsPerPhase : Obligations.OutputsPerPhase := by
  intro s hlen
  refine ⟨plHandshake_eq_outHandshake, ?_⟩
  cases hp : s.phase with
  | idle => exact outputs_idle hp
  | mka => simp [outputs_of_phase hp, State.outData, hp]
  | mkb => simp [outputs_of_phase hp, State.outData, hp, State.markerBByte, markerB]
  | did => simp [outputs_of_phase hp, State.outData, hp]
  | cid => simp [outputs_of_phase hp, State.outData, hp]
  | seq => simp [outputs_of_phase hp, State.outData, hp]
  | len => simp [outputs_of_phase hp, State.outData, hp, lengthByte_of_ne hlen]
  | pay => simp [outputs_of_phase hp, State.outData, hp]
  | chk => simp [outputs_of_phase hp, State.outData, hp, State.checksumByte, not8_eq_sub]
  | fault => exact outputs_fault hp

end Sys2Proof.Machine
end

section
/-! PROOF. Data registers left in IDLE or FAULT influence nothing (10_state.md R36). In every other phase the two states
are equal, so only RESET, ACCEPT and the faulted hold are to be looked at. -/

namespace Sys2Proof.Machine

theorem sameButDead_refl (s : State) : s.sameButDead s :=
  ⟨rfl, rfl, rfl, rfl, rfl, rfl, rfl, fun _ _ => ⟨rfl, rfl, rfl, rfl, rfl, rfl, rfl⟩⟩

/-- While a frame is in progress no register is dead. -/
theorem sameButDead_eq {s t : State} (h : s.sameButDead t) (hidle : s.phase ≠ .idle) (hfault : s.phase ≠ .fault) :
    t = s := by
  obtain ⟨hphase, hreq, hpay, hout, hpins, henv, hinst, hlive⟩ := h
  obtain ⟨hdid, hcid, hseq, hack, hlen, hrem, hsum⟩ := hlive hidle hfault
  exact State.ext_fields
    ⟨hphase, hdid, hcid, hseq, hack, hlen, hrem, hsum, hreq, hpay, hout, hpins, henv, hinst⟩

theorem sameButDead_phase {s t : State} (h : s.sameButDead t) : t.phase = s.phase := h.1

theorem sameButDead_pins {s t : State} (h : s.sameButDead t) : t.pins = s.pins := by
  obtain ⟨-, -, -, -, hpins, -, -, -⟩ := h
  exact hpins

theorem sameButDead_reqPort {s t : State} (h : s.sameButDead t) : t.reqPort = s.reqPort := by
  obtain ⟨-, hreq, -, -, hpins, -, -, -⟩ := h
  simp only [State.reqPort, hreq, hpins]

/-- The environment's move reads no data register. -/
theorem sameButDead_clock {s t : State} (h : s.sameButDead t) : s.clock.sameButDead t.clock := by
  obtain ⟨hphase, hreq, hpay, hout, hpins, henv, hinst, hlive⟩ := h
  cases he : s.env with
  | nil =>
    rw [clock_idle s he, clock_idle t (henv.trans he)]
    exact ⟨hphase, hreq, hpay, hout, hpins, henv, hinst, hlive⟩
  | cons m rest =>
    simp only [State.clock, henv, he, hreq, hpay]
    exact ⟨hphase, rfl, rfl, hout, rfl, rfl, hinst, hlive⟩

/-- RESET writes every data register. -/
theorem sameButDead_resetRegs {s t : State} (h : s.sameButDead t) : s.resetRegs.sameButDead t.resetRegs := by
  obtain ⟨-, hreq, hpay, hout, hpins, henv, hinst, -⟩ := h
  exact ⟨rfl, hreq, hpay, hout, hpins, henv, hinst, fun hidle _ => absurd rfl hidle⟩

/-- ACCEPT enters FAULT, where the data registers are dead, or writes every one of them from the record. -/
theorem sameButDead_takeRequest {s t : State} (h : s.sameButDead t) (r : Request) :
    (s.takeRequest r).sameButDead (t.takeRequest r) := by
  obtain ⟨-, hreq, hpay, hout, hpins, henv, hinst, -⟩ := h
  have hpop : t.req.tail = s.req.tail := congrArg List.tail hreq
  by_cases hlen : r.len = 255
  · rw [takeRequest_illegal hlen, takeRequest_illegal hlen]
    exact ⟨rfl, hpop, hpay, hout, hpins, henv, hinst, fun _ hfault => absurd rfl hfault⟩
  · rw [takeRequest_legal hlen, takeRequest_legal hlen]
    exact ⟨rfl, hpop, hpay, hout, hpins, henv, hinst, fun _ _ => ⟨rfl, rfl, rfl, rfl, rfl, rfl, rfl⟩⟩

theorem sameButDead_outputs {s t : State} (h : s.sameButDead t) : t.outputs = s.outputs := by
  have ht := sameButDead_phase h
  by_cases hidle : s.phase = .idle
  · exact (outputs_idle (ht.trans hidle)).trans (outputs_idle hidle).symm
  by_cases hfault : s.phase = .fault
  · exact (outputs_fault (ht.trans hfault)).trans (outputs_fault hfault).symm
  · rw [sameButDead_eq h hidle hfault]

/-- An edge that one of the two states takes the other takes too, into such a pair again. -/
theorem sameButDead_step {s t s' : State} (h : s.sameButDead t) (hstep : step s = .next s') :
    ∃ t', step t = .next t' ∧ s'.sameButDead t' := by
  have ht := sameButDead_phase h
  cases hr : s.pins.rst with
  | true =>
    cases (step_rst hr).symm.trans hstep
    exact ⟨_, step_rst (sameButDead_pins h ▸ hr), sameButDead_clock (sameButDead_resetRegs h)⟩
  | false =>
    have htr : t.pins.rst = false := sameButDead_pins h ▸ hr
    by_cases hidle : s.phase = .idle
    · cases (step_idle hr hidle).symm.trans hstep
      refine ⟨_, step_idle htr (ht.trans hidle), sameButDead_clock ?_⟩
      rw [sameButDead_reqPort h]
      cases s.reqPort with
      | none => exact h
      | some r => exact sameButDead_takeRequest h r
    by_cases hfault : s.phase = .fault
    · cases (step_fault hr hfault).symm.trans hstep
      exact ⟨_, step_fault htr (ht.trans hfault), sameButDead_clock h⟩
    · rw [sameButDead_eq h hidle hfault]
      exact ⟨s', hstep, sameButDead_refl s'⟩

/-- Settles O49: such a pair shows the same outputs, and every edge keeps it such a pair. -/
theorem nothingSurvivesAFrame : Obligations.NothingSurvivesAFrame :=
  fun _ _ h => ⟨sameButDead_outputs h, fun _ => sameButDead_step h⟩

end Sys2Proof.Machine
end

section
/-! PROOF. The five latches are written by ACCEPT and RESET only (10_state.md R27 to R31). -/

namespace Sys2Proof.Machine

@[simp] theorem setPhase_latched (s : State) (p : Phase) : (s.setPhase p).latched = s.latched := rfl
@[simp] theorem setRem_latched (s : State) (v : Byte) : (s.setRem v).latched = s.latched := rfl
@[simp] theorem popReq_latched (s : State) : s.popReq.latched = s.latched := rfl
@[simp] theorem popPay_latched (s : State) : s.popPay.latched = s.latched := rfl
@[simp] theorem writeOut_latched (s : State) (v : Byte) (last : Bool) :
    (s.writeOut v last).latched = s.latched := rfl
@[simp] theorem emitSummed_latched (s : State) (b : Byte) : (s.emitSummed b).latched = s.latched := rfl
@[simp] theorem latch_latched (s : State) (r : Request) : (s.latch r).latched = r := rfl
@[simp] theorem enterLenFault_latched (s : State) : s.enterLenFault.latched = s.latched := rfl
@[simp] theorem resetRegs_latched (s : State) :
    s.resetRegs.latched = { did := 0, cid := 0, seq := 0, ack := false, len := 0 } := rfl
@[simp] theorem clock_latched (s : State) : s.clock.latched = s.latched := by simp [State.latched]

/-- ACCEPT latches the record it takes, unless it faults. -/
theorem takeRequest_latched (s : State) (r : Request) :
    (s.takeRequest r).latched = if r.len = 255 then s.latched else r := by
  by_cases h : r.len = 255
  · rw [takeRequest_illegal h, if_pos h, enterLenFault_latched, popReq_latched]
  · rw [takeRequest_legal h, if_neg h, setPhase_latched, latch_latched]

/-- A step's result or its hold: the latches stay when the result has them. -/
theorem ite_clock_latched {s u : State} (c : Prop) [Decidable c] (h : u.latched = s.latched) :
    (if c then u else s).clock.latched = s.latched := by
  by_cases hc : c
  · rw [if_pos hc, clock_latched, h]
  · rw [if_neg hc, clock_latched]

/-- The request handshake: out of reset, idle, a record offered (R22). -/
theorem reqHandshake_eq_some_iff {s : State} {r : Request} :
    s.reqHandshake = some r ↔ s.pins.rst = false ∧ s.phase = .idle ∧ s.reqPort = some r := by
  simp [State.reqHandshake, State.reqReady, and_assoc, and_left_comm]

/-- An edge that takes a record is its ACCEPT. -/
theorem step_of_reqHandshake {s : State} {r : Request} (h : s.reqHandshake = some r) :
    step s = .next (s.takeRequest r).clock := by
  obtain ⟨hr, hidle, hport⟩ := reqHandshake_eq_some_iff.mp h
  simp only [step_idle hr hidle, hport]

/-- Out of reset, an edge that takes no record keeps the latches. -/
theorem step_latched_of_no_request {s t : State} (h : step s = .next t) (hr : s.pins.rst = false)
    (hnone : s.reqHandshake = none) : t.latched = s.latched := by
  obtain ⟨hrst, -⟩ | ⟨-, hphase⟩ := step_cases h
  · simp [hr] at hrst
  · obtain ⟨-, -, rfl⟩ | ⟨hidle, r, hport, -⟩ | ⟨-, rfl⟩ | ⟨-, rfl⟩ | ⟨-, rfl⟩ | ⟨-, rfl⟩ | ⟨-, -, rfl⟩ | ⟨-, rfl⟩ |
      ⟨-, -, rfl⟩ | ⟨-, b, -, rfl⟩ | ⟨-, rfl⟩ | ⟨-, rfl⟩ := hphase
    · exact clock_latched s -- IDLE, no request
    · have htaken := reqHandshake_eq_some_iff.mpr ⟨hr, hidle, hport⟩ -- IDLE, a request taken
      rw [hnone] at htaken
      cases htaken
    · exact ite_clock_latched _ (by simp) -- MKA
    · exact ite_clock_latched _ (by simp) -- MKB
    · exact ite_clock_latched _ (by simp) -- DID
    · exact ite_clock_latched _ (by simp) -- CID
    · exact ite_clock_latched _ (by simp) -- SEQ
    · exact ite_clock_latched _ (by simp) -- LEN
    · exact clock_latched s -- PAY, no byte
    · exact ite_clock_latched _ (by simp) -- PAY, a byte offered
    · exact ite_clock_latched _ (by simp) -- CHK
    · exact clock_latched s -- FAULT

/-- Settles O27: an edge that takes no record, an edge that takes one, and RESET. -/
theorem latchesWrittenByAcceptAndResetOnly : Obligations.LatchesWrittenByAcceptAndResetOnly := by
  intro s t h
  refine ⟨step_latched_of_no_request h, fun r hreq => ?_, fun hrst => ?_⟩
  · cases (step_of_reqHandshake hreq).symm.trans h
    rw [clock_latched, takeRequest_latched]
  · cases (step_rst hrst).symm.trans h
    rw [clock_latched, resetRegs_latched]

end Sys2Proof.Machine
end

section
/-! PROOF. The decoder on the words of the spec (30_encoding.md R71 to R73), and the reset state. -/

namespace Sys2Proof

/-- Codes 10 to 15 select nothing (R73). -/
theorem decode_unused_phase {c : BitVec 4} (h : 10 ≤ c.toNat) : decode (.phase c) = .error (.noSuchPhase c.toNat) := by
  obtain ⟨n, hn⟩ := Nat.exists_eq_add_of_le' h
  simp only [decode, decodePhase, hn]

/-- `len = 255` is the one illegal request (R72). -/
theorem decode_request_len255 {r : Request} (h : r.len = 255) (payload : List Byte) :
    decode (.request r payload) = .error .lenReserved := if_pos h

/-- Settles O2: the words with fixed bits by evaluation, the others by their lemmas. -/
theorem operationWordsDecode : Obligations.OperationWordsDecode :=
  ⟨rfl, rfl, rfl, rfl, rfl, rfl, rfl, rfl, rfl, rfl, rfl, fun _ => decode_unused_phase, rfl,
    fun _ _ _ _ => decode_request_len255 rfl, rfl, rfl⟩

/-- Settles O40: the block is idle after reset. -/
theorem resetMeetsTheInvariant : Obligations.ResetMeetsTheInvariant := .inl rfl

end Sys2Proof
end

section
/-! PROOF. What the operation of one edge does to the three streams (20_memory.md R40, R43, R48, R49). -/

namespace Sys2Proof.Machine

/-- The edge took `s` to `u` moving exactly the elements handed over: the byte of the OUT handshake to the end of OUT,
the heads of REQ and PAY away when their handshakes complete. -/
def State.movesByHandshakes (s u : State) : Prop :=
  u.out = s.out ++ (s.outHandshake.map fun b => { data := b, last := s.outLast }).toList ∧
    u.req = (if s.reqHandshake.isSome then s.req.tail else s.req) ∧
    u.pay = (if s.plHandshake.isSome then s.pay.tail else s.pay)

theorem takeRequest_streams (s : State) (r : Request) :
    (s.takeRequest r).out = s.out ∧ (s.takeRequest r).req = s.req.tail ∧ (s.takeRequest r).pay = s.pay := by
  by_cases h : r.len = 255
  · rw [takeRequest_illegal h]
    exact ⟨rfl, rfl, rfl⟩
  · rw [takeRequest_legal h]
    exact ⟨rfl, rfl, rfl⟩

/-- Under `rst` no handshake completes (R22, R23, R24). -/
theorem handshakes_of_rst {s : State} (hr : s.pins.rst = true) :
    s.reqHandshake = none ∧ s.plHandshake = none ∧ s.outHandshake = none := by
  simp [State.reqHandshake, State.plHandshake, State.outHandshake, hr]

theorem reqHandshake_of_not_idle {s : State} (hp : s.phase ≠ .idle) : s.reqHandshake = none := by
  simp [State.reqHandshake, State.reqReady, hp]

theorem plHandshake_of_not_pay {s : State} (hp : s.phase ≠ .pay) : s.plHandshake = none := by
  simp [State.plHandshake, State.plReady, hp]

/-- The byte handed over on OUT is the one offered. -/
theorem outData_of_outHandshake {s : State} {b : Byte} (h : s.outHandshake = some b) : s.outData = some b := by
  unfold State.outHandshake at h
  split at h
  · exact h
  · cases h

theorem outHandshake_of_no_offer {s : State} (h : s.outData = none) : s.outHandshake = none := by
  simp [State.outHandshake, h]

/-- An operation that changes no stream, at an edge without a handshake. -/
theorem movesByHandshakes_hold {s u : State} (hout : s.outHandshake = none) (hreq : s.reqHandshake = none)
    (hpay : s.plHandshake = none) (h : u.out = s.out ∧ u.req = s.req ∧ u.pay = s.pay) : s.movesByHandshakes u := by
  simp [State.movesByHandshakes, hout, hreq, hpay, h]

/-- In its own phase an EMIT step completes with the OUT handshake, and holds without it. -/
theorem onEmit_of_phase {s : State} {own : Phase} (t : State) (hp : s.phase = own) :
    s.onEmit own t = if s.outHandshake.isSome then t else s := by
  simp [State.onEmit, hp]

/-- The EMIT steps that take no payload byte: the result `t` need only write the offered byte `b` to OUT, tagged
`last` in CHK alone. -/
theorem onEmit_movesByHandshakes {s t : State} {own : Phase} {b : Byte} (hp : s.phase = own) (hidle : own ≠ .idle)
    (hpay : own ≠ .pay) (hdata : s.outData = some b)
    (ht : t.out = s.out ++ [{ data := b, last := own == .chk }] ∧ t.req = s.req ∧ t.pay = s.pay) :
    s.movesByHandshakes (s.onEmit own t) := by
  subst hp
  have hreq := reqHandshake_of_not_idle hidle
  have hpl := plHandshake_of_not_pay hpay
  obtain ⟨htout, htreq, htpay⟩ := ht
  rw [onEmit_of_phase t rfl]
  cases h : s.outHandshake with
  | none => exact movesByHandshakes_hold h hreq hpl ⟨rfl, rfl, rfl⟩
  | some c =>
    cases hdata.symm.trans (outData_of_outHandshake h)
    simp [State.movesByHandshakes, State.outLast, h, hreq, hpl, htout, htreq, htpay]

/-- ACCEPT in IDLE: nothing is offered on OUT, and PAY is not ready. -/
theorem execAccept_movesByHandshakes {s u : State} (hp : s.phase = .idle) (h : execAccept s = .next u) :
    s.movesByHandshakes u := by
  have hout : s.outHandshake = none := outHandshake_of_no_offer (by simp [State.outData, hp])
  have hpl : s.plHandshake = none := plHandshake_of_not_pay (by simp [hp])
  unfold execAccept at h
  cases hq : s.reqHandshake with
  | none =>
    simp only [hq] at h
    cases h
    exact movesByHandshakes_hold hout hq hpl ⟨rfl, rfl, rfl⟩
  | some r =>
    simp only [hq] at h
    cases h
    simp [State.movesByHandshakes, hout, hq, hpl, takeRequest_streams]

/-- EMIT_PAY in PAY: the byte leaves PAY at the edge at which it enters OUT. -/
theorem execEmitPay_movesByHandshakes {s u : State} (hp : s.phase = .pay) (h : execEmitPay s = .next u) :
    s.movesByHandshakes u := by
  have hreq : s.reqHandshake = none := reqHandshake_of_not_idle (by simp [hp])
  have hpl := plHandshake_eq_outHandshake hp
  have hdata : s.outData = s.plPort := by simp [State.outData, hp]
  have hlast : s.outLast = false := by simp [State.outLast, hp]
  unfold execEmitPay at h
  cases hq : s.plPort with
  | none =>
    simp only [hq] at h
    cases h
    have hout := outHandshake_of_no_offer (hdata.trans hq)
    exact movesByHandshakes_hold hout hreq (hpl.trans hout) ⟨rfl, rfl, rfl⟩
  | some b =>
    simp only [hq, onEmit_of_phase _ hp] at h
    cases h
    cases ho : s.outHandshake with
    | none => exact movesByHandshakes_hold ho hreq (hpl.trans ho) ⟨rfl, rfl, rfl⟩
    | some c =>
      cases (hdata.trans hq).symm.trans (outData_of_outHandshake ho)
      simp [State.movesByHandshakes, ho, hreq, hpl.trans ho, hlast]

/-- What selects the operation of an edge: `rst`, else the phase (R100). -/
theorem fetch_cases {s : State} {i : Instr} (h : s.fetch = .ok i) :
    (s.pins.rst = true ∧ i = .reset) ∨ (s.pins.rst = false ∧ decodePhase s.phase.code = .ok i) := by
  cases hr : s.pins.rst with
  | true =>
    simp only [State.fetch, State.selector, hr, if_true, decode] at h
    cases h
    exact .inl ⟨rfl, rfl⟩
  | false =>
    simp only [State.fetch, State.selector, hr, decode] at h
    exact .inr ⟨rfl, h⟩

/-- Every operation an edge can run moves the streams by the handshakes of that edge. -/
theorem exec_movesByHandshakes {s u : State} {i : Instr} (hf : s.fetch = .ok i) (h : exec i s = .next u) :
    s.movesByHandshakes u := by
  obtain ⟨hr, rfl⟩ | ⟨-, hi⟩ := fetch_cases hf
  · obtain ⟨hreq, hpl, hout⟩ := handshakes_of_rst hr
    simp only [exec, execReset, hr, if_true] at h
    cases h
    exact movesByHandshakes_hold hout hreq hpl ⟨rfl, rfl, rfl⟩
  · cases hp : s.phase <;> rw [hp] at hi <;> obtain rfl := Except.ok.inj hi
    case idle => exact execAccept_movesByHandshakes hp h
    case mka | mkb | did | cid | len | chk =>
      cases h
      exact onEmit_movesByHandshakes hp nofun nofun (by simp [State.outData, hp]) ⟨rfl, rfl, rfl⟩
    case seq =>
      simp only [exec, execEmitSeq] at h
      split at h
      · cases h
        exact onEmit_movesByHandshakes hp nofun nofun (by simp [State.outData, hp]) ⟨rfl, rfl, rfl⟩
      · cases h
    case pay => exact execEmitPay_movesByHandshakes hp h
    case fault =>
      cases h
      exact movesByHandshakes_hold (outHandshake_of_no_offer (by simp [State.outData, hp]))
        (reqHandshake_of_not_idle (by simp [hp])) (plHandshake_of_not_pay (by simp [hp])) ⟨rfl, rfl, rfl⟩

/-- Settles O6: the operation an edge selects moves the streams by that edge's handshakes. -/
theorem streamsMoveByHandshakesOnly : Obligations.StreamsMoveByHandshakesOnly := by
  intro s u i hf h
  obtain ⟨hout, hreq, hpay⟩ := exec_movesByHandshakes hf h
  refine ⟨?_, hreq, hpay⟩
  rw [hout]
  cases s.outHandshake <;> rfl

end Sys2Proof.Machine
end

section
/-! PROOF. BUILD on an idle block with nothing queued (20_memory.md R42, 60_exceptions.md R155). -/

namespace Sys2Proof.Machine

/-- The two forms of BUILD are one operation with the form as its `ack` bit (R80). -/
theorem exec_build (s : State) (ack : Bool) (did cid seq : Byte) (payload : List Byte) :
    exec (if ack then .buildAck did cid seq payload else .buildNoack did cid seq payload) s =
      s.build ack did cid seq payload := by
  cases ack <;> rfl

/-- The record's `len` counts a payload the port can express. -/
theorem requestOf_len_toNat (did cid seq : Byte) (ack : Bool) {payload : List Byte} (h : payload.length ≤ 254) :
    (requestOf did cid seq ack payload).len.toNat = payload.length :=
  (BitVec.toNat_ofNat ..).trans (Nat.mod_eq_of_lt (by omega))

theorem takesNext_of_idle {s : State} (hp : s.phase = .idle) (hr : s.pins.rst = false) (hreq : s.req = []) :
    s.takesNext = true := by
  simp [State.takesNext, State.reqReady, hp, hr, hreq]

/-- A legal BUILD that the block takes next is carried out whole. -/
theorem build_of_takesNext {s : State} (hn : s.takesNext = true) (ack : Bool) (did cid seq : Byte)
    {payload : List Byte} (h : payload.length ≤ 254) :
    s.build ack did cid seq payload =
      .next ((s.offer (requestOf did cid seq ack payload) payload).buildHead (requestOf did cid seq ack payload)) := by
  obtain ⟨hlen, -⟩ | ⟨-, hwait, -⟩ | ⟨hlen, -, -⟩ | ⟨-, -, heq⟩ := build_cases s ack did cid seq payload
  · omega
  · simp [hn] at hwait
  · omega
  · exact heq

/-- Settles O20: the request is at the head of REQ, and its payload is the front of PAY with the stale bytes first. -/
theorem surplusBytesGoToTheNextRequest : Obligations.SurplusBytesGoToTheNextRequest := by
  intro s ack did cid seq payload hp hr hreq hlen
  have hcount := requestOf_len_toNat did cid seq ack hlen
  refine ⟨_, (exec_build ..).trans (build_of_takesNext (takesNext_of_idle hp hr hreq) ack did cid seq hlen),
    ?_, ?_, ?_, ?_⟩
  · simp [hcount]
  · simp [hcount]
  · simp [hcount]
  · simp [hreq]

end Sys2Proof.Machine
end

section
/-! PROOF. Where each field stands in the frame (20_memory.md R50, 30_encoding.md R60 to R67). -/

namespace Sys2Proof.Machine

/-- The frame cut after its four fixed offsets. -/
theorem frame_eq_head_append (p : Config.Params) (r : Request) (payload : List Byte) :
    frame p r payload =
      [p.markerA, markerB p r.ack, r.did, r.cid] ++
        (seqPart p r.seq ++ lengthByte r.len :: (payload ++ [checksum p r payload])) := by
  simp [frame, frameBody, covered]

/-- From offset 4 + S on: the length byte, the payload, the checksum. -/
theorem frame_getElem?_tail (p : Config.Params) (r : Request) (payload : List Byte) (i : Nat) :
    (frame p r payload)[4 + seqCount p + i]? = (lengthByte r.len :: (payload ++ [checksum p r payload]))[i]? := by
  have hfront : ([p.markerA, markerB p r.ack, r.did, r.cid] ++ seqPart p r.seq).length = 4 + seqCount p := by
    simp
    omega
  rw [frame_eq_head_append, ← List.append_assoc, List.getElem?_append_right (by omega), hfront,
    Nat.add_sub_cancel_left]

/-- From offset 5 + S on: the payload and the checksum. -/
theorem frame_getElem?_payload (p : Config.Params) (r : Request) (payload : List Byte) (i : Nat) :
    (frame p r payload)[5 + seqCount p + i]? = (payload ++ [checksum p r payload])[i]? := by
  have hoff : 5 + seqCount p + i = 4 + seqCount p + (i + 1) := by omega
  rw [hoff, frame_getElem?_tail, List.getElem?_cons_succ]

theorem frame_getElem?_seq {p : Config.Params} (hs : p.seqInFrame = true) (r : Request) (payload : List Byte) :
    (frame p r payload)[4]? = some r.seq := by
  simp [frame_eq_head_append, seqPart, hs]

/-- The length byte of a legal request is `L + 1`, without wrap-around (R66). -/
theorem lengthByte_eq_ofNat {len : Byte} (h : len ≠ 255) : lengthByte len = BitVec.ofNat 8 (len.toNat + 1) :=
  (inc8_of_ne h).trans (by bv_omega)

/-- Settles O33, field by field. -/
theorem frameOffsetMap : Obligations.FrameOffsetMap := by
  intro p r payload hlen hcount
  refine ⟨?_, ?_, ?_, ?_, fun hs => frame_getElem?_seq hs r payload, ?_, fun i hi => ?_, ?_, frame_length p r payload⟩
  · simp [frame_eq_head_append] -- marker A
  · simp [frame_eq_head_append, markerB] -- marker B
  · simp [frame_eq_head_append] -- did
  · simp [frame_eq_head_append] -- cid
  · exact (frame_getElem?_tail p r payload 0).trans (congrArg some (lengthByte_eq_ofNat hlen)) -- length byte
  · exact (frame_getElem?_payload p r payload i).trans (List.getElem?_append_left hi) -- payload byte i
  · exact (frame_getElem?_payload p r payload _).trans List.getElem?_concat_length -- checksum

end Sys2Proof.Machine
end

section
/-! PROOF. The reader of frames and the frame are inverse to each other (30_encoding.md R60 to R70). -/

namespace Sys2Proof

open Machine

/-- The length byte of a legal request counts the bytes after it: the payload and the checksum (R66). -/
theorem lengthByte_toNat {len : Byte} (h : len ≠ 255) : (lengthByte len).toNat = len.toNat + 1 := by
  rw [lengthByte_eq_ofNat h]
  bv_omega

/-- The length byte of a payload a frame can carry counts one more than its bytes. -/
theorem lengthByte_ofNat_toNat {n : Nat} (h : n ≤ 254) : (lengthByte (BitVec.ofNat 8 n)).toNat = n + 1 := by
  rw [lengthByte_toNat (by bv_omega), BitVec.toNat_ofNat, Nat.mod_eq_of_lt (by omega)]

/-- The tail reader accepts exactly a length byte, the bytes it counts but one, and the checksum of what came before
(R66, R68, R70). -/
theorem readTail_eq_ok_iff (ack : Bool) (did cid : Byte) (seq : Option Byte) (head bytes after : List Byte)
    (f : FrameFields) :
    readTail ack did cid seq head bytes = .ok (f, after) ↔
      ∃ (lb : Byte) (payload : List Byte), lb.toNat = payload.length + 1 ∧
        f = { ack := ack, did := did, cid := cid, seq := seq, payload := payload } ∧
        bytes = lb :: (payload ++ not8 (sum8 (head ++ [lb] ++ payload)) :: after) := by
  constructor
  · intro h
    cases bytes with
    | nil => cases h
    | cons lb rest =>
      simp only [readTail] at h
      split at h
      · cases h
      · next hlb =>
        have hpos : lb.toNat ≠ 0 := fun e => hlb (BitVec.eq_of_toNat_eq e)
        split at h
        · cases h
        · next chk rest' hdrop =>
          split at h
          · next hchk =>
            cases h
            have hlen := congrArg List.length hdrop
            simp only [List.length_drop, List.length_cons] at hlen
            refine ⟨lb, _, ?_, rfl, ?_⟩
            · rw [List.length_take]
              omega
            · rw [← hchk, ← hdrop, List.take_append_drop]
          · cases h
  · rintro ⟨lb, payload, hcount, rfl, rfl⟩
    have hlb : lb ≠ 0 := by
      rintro rfl
      simp at hcount
    rw [readTail, if_neg hlb]
    simp [hcount]

/-- Marker B is read as the flag it was written for, when the two values differ (R6, R62). -/
theorem readMarkerB_markerB {p : Config.Params} (hp : p.ok = true) (ack : Bool) :
    readMarkerB p (markerB p ack) = .ok ack := by
  have hne : p.markerBAck ≠ p.markerBNoack := bne_iff_ne.mp hp
  cases ack with
  | true => exact if_pos rfl
  | false => exact (if_neg hne.symm).trans (if_pos rfl)

/-- A marker B that is read as a flag is the marker of that flag. -/
theorem markerB_of_readMarkerB {p : Config.Params} {b : Byte} {ack : Bool} (h : readMarkerB p b = .ok ack) :
    b = markerB p ack := by
  unfold readMarkerB at h
  split at h
  · cases h
    assumption
  · split at h
    · cases h
      assumption
    · cases h

/-- The sequence number as the fields of a frame hold it: there when S = 1 (R65). -/
def seqField (p : Config.Params) (seq : Byte) : Option Byte := if p.seqInFrame then some seq else none

theorem seqField_isSome (p : Config.Params) (seq : Byte) : (seqField p seq).isSome ↔ p.seqInFrame = true := by
  cases hs : p.seqInFrame <;> simp [seqField, hs]

/-- The sequence byte is the one of the field: with S = 0 there is neither (40_build.md R87). -/
theorem seqPart_seqField (p : Config.Params) (seq : Byte) : seqPart p ((seqField p seq).getD 0#8) = seqPart p seq := by
  cases hs : p.seqInFrame <;> simp [seqPart, seqField, hs]

/-- The four bytes at fixed offsets and the sequence byte are read field by field. -/
theorem readFrame_head {p : Config.Params} (hp : p.ok = true) (ack : Bool) (did cid seq : Byte) (rest : List Byte) :
    readFrame p (p.markerA :: markerB p ack :: did :: cid :: (seqPart p seq ++ rest)) =
      readTail ack did cid (seqField p seq) ([did, cid] ++ seqPart p seq) rest := by
  cases hs : p.seqInFrame <;> simp [readFrame, readMarkerB_markerB hp, seqPart, seqField, hs]

/-- What the reader accepts begins with the markers and the fields it answers. -/
theorem readFrame_eq_ok {p : Config.Params} {bytes after : List Byte} {f : FrameFields}
    (h : readFrame p bytes = .ok (f, after)) :
    ∃ (ack : Bool) (did cid seq : Byte) (rest : List Byte),
      bytes = p.markerA :: markerB p ack :: did :: cid :: (seqPart p seq ++ rest) ∧
        readTail ack did cid (seqField p seq) ([did, cid] ++ seqPart p seq) rest = .ok (f, after) := by
  unfold readFrame at h
  split at h
  · next a b did cid rest =>
    split at h
    · next ha =>
      subst ha
      split at h
      · cases h
      · next ack hack =>
        rw [markerB_of_readMarkerB hack]
        cases hs : p.seqInFrame with
        | true =>
          simp only [hs, if_true] at h
          cases rest with
          | nil => cases h
          | cons seq rest =>
            exact ⟨ack, did, cid, seq, rest, by simp [seqPart, hs], by simpa [seqPart, seqField, hs] using h⟩
        | false =>
          simp only [hs] at h
          exact ⟨ack, did, cid, 0, rest, by simp [seqPart, hs], by simpa [seqPart, seqField, hs] using h⟩
    · cases h
  · cases h

/-- Settles O36: the head is read field by field, and the length byte gives the tail reader the payload's end. -/
theorem readFrameInvertsFrame : Obligations.ReadFrameInvertsFrame := by
  intro p r payload after hp hlen hcount
  have hread : readFrame p (frame p r payload ++ after) =
      readTail r.ack r.did r.cid (seqField p r.seq) ([r.did, r.cid] ++ seqPart p r.seq)
        (lengthByte r.len :: (payload ++ checksum p r payload :: after)) := by
    rw [← readFrame_head hp, frame_eq_head_append]
    simp
  rw [hread, readTail_eq_ok_iff]
  exact ⟨lengthByte r.len, payload, by rw [lengthByte_toNat hlen, hcount], rfl, rfl⟩

/-- Settles O37: the tail reader's length byte is the one of a request with that many payload bytes. -/
theorem readFrameAcceptsFramesOnly : Obligations.ReadFrameAcceptsFramesOnly := by
  intro p bytes after f h
  obtain ⟨ack, did, cid, seq, rest, rfl, htail⟩ := readFrame_eq_ok h
  obtain ⟨lb, payload, hcount, rfl, rfl⟩ := (readTail_eq_ok_iff ..).mp htail
  have hle : payload.length ≤ 254 := by
    have := lb.isLt
    omega
  have hlb : lengthByte (BitVec.ofNat 8 payload.length) = lb :=
    BitVec.eq_of_toNat_eq (by rw [lengthByte_ofNat_toNat hle, hcount])
  refine ⟨hle, seqField_isSome p seq, ?_⟩
  simp [frame_eq_head_append, checksum, covered, requestOf, hlb, seqPart_seqField]

end Sys2Proof
end

section
/-! PROOF. The decoder and the encoder of operations are inverse to each other (30_encoding.md R71 to R73). -/

namespace Sys2Proof

open Machine

/-- A legal request is read as the form of BUILD its `ack` bit names, with its fields as operands. -/
theorem decodeRequest_requestOf (did cid seq : Byte) (ack : Bool) {payload : List Byte} (h : payload.length ≤ 254) :
    decodeRequest (requestOf did cid seq ack payload) payload =
      .ok (if ack then .buildAck did cid seq payload else .buildNoack did cid seq payload) := by
  have hcount := requestOf_len_toNat did cid seq ack h
  have hlen : (requestOf did cid seq ack payload).len ≠ 255 := by
    intro e
    rw [e] at hcount
    simp at hcount
    omega
  unfold decodeRequest
  rw [if_neg hlen, if_neg (not_not.mpr hcount.symm)]
  cases ack <;> rfl

/-- Settles O38, operation by operation: the two forms of BUILD by their request, the others by their code. -/
theorem decodeInvertsEncode : Obligations.DecodeInvertsEncode := by
  intro p i hwf
  cases i with
  | buildAck did cid seq payload => exact decodeRequest_requestOf did cid seq true (of_decide_eq_true hwf)
  | buildNoack did cid seq payload => exact decodeRequest_requestOf did cid seq false (of_decide_eq_true hwf)
  | accept | emitMka | emitMkb | emitDid | emitCid | emitSeq | emitLen | emitPay | emitChk | faulted | reset => rfl

/-- A phase code that is read is the code of the step it is read as. -/
theorem encode_of_decodePhase {c : BitVec 4} {i : Instr} (h : decodePhase c = .ok i) : encode i = .phase c := by
  unfold decodePhase at h
  split at h <;> cases h <;> exact congrArg Code.phase (BitVec.eq_of_toNat_eq (by simp [*]))

/-- A request that is read has the legal length its payload has, and names the operation it is the encoding of. -/
theorem encode_of_decodeRequest {r : Request} {payload : List Byte} {i : Instr} (h : decodeRequest r payload = .ok i) :
    encode i = .request r payload ∧ payload.length ≤ 254 := by
  unfold decodeRequest at h
  split at h
  · cases h
  · next hlen =>
    split at h
    · cases h
    · next hcount =>
      have hcount := not_not.mp hcount
      have hle : payload.length ≤ 254 := by bv_omega
      have hr : requestOf r.did r.cid r.seq r.ack payload = r := by simp [requestOf, hcount]
      refine ⟨?_, hle⟩
      split at h <;> next hack =>
        cases h
        simpa [encode, hack] using hr

/-- An operation that a phase code selects has no payload: it is well formed wherever the step exists (R106). -/
theorem wellFormed_of_encode_phase {p : Config.Params} {i : Instr} {c : BitVec 4} (h : encode i = .phase c)
    (hseq : i = .emitSeq → p.seqInFrame = true) : WellFormed p i = true := by
  cases i with
  | buildAck | buildNoack | reset => cases h
  | emitSeq => exact hseq rfl
  | accept | emitMka | emitMkb | emitDid | emitCid | emitLen | emitPay | emitChk | faulted => rfl

theorem wellFormed_of_encode_request {p : Config.Params} {i : Instr} {r : Request} {payload : List Byte}
    (h : encode i = .request r payload) (hle : payload.length ≤ 254) : WellFormed p i = true := by
  cases i <;> cases h <;> exact decide_eq_true hle

/-- Settles O39, by the three kinds of code. -/
theorem encodeInvertsDecode : Obligations.EncodeInvertsDecode := by
  intro c i h
  cases c with
  | phase code =>
    have henc := encode_of_decodePhase h
    exact ⟨henc, fun _ => wellFormed_of_encode_phase henc⟩
  | rst high =>
    cases high <;> cases h
    exact ⟨rfl, fun _ _ => rfl⟩
  | request r payload =>
    obtain ⟨henc, hle⟩ := encode_of_decodeRequest h
    exact ⟨henc, fun _ _ => wellFormed_of_encode_request henc hle⟩

end Sys2Proof
end

section
/-! PROOF. What follows from the checksum rule (30_encoding.md R68, R76). -/

namespace Sys2Proof.Machine

/-- `sum8` is the sum of the library. -/
theorem sum8_eq_sum (bytes : List Byte) : sum8 bytes = bytes.sum := by
  induction bytes with
  | nil => rfl
  | cons b t ih => rw [sum8_cons, ih, List.sum_cons, add8]

/-- The order of the bytes does not reach their sum. -/
theorem sum8_perm {xs ys : List Byte} (h : xs.Perm ys) : sum8 xs = sum8 ys := by
  rw [sum8_eq_sum, sum8_eq_sum, h.sum_eq]

/-- A byte and its complement sum to 255 (R10). -/
theorem add8_not8 (a : Byte) : add8 a (not8 a) = 255 := by
  rw [not8_eq_sub]
  exact add_sub_cancel a 255

theorem not8_eq_255_iff (a : Byte) : not8 a = 255 ↔ a = 0 := by
  rw [not8_eq_sub, sub_eq_self]

theorem not8_eq_zero_iff (a : Byte) : not8 a = 0 ↔ a = 255 := by
  rw [not8_eq_sub, sub_eq_zero, eq_comm]

/-- From offset 2 on a frame is its covered bytes and their checksum. -/
theorem frame_drop_two (p : Config.Params) (r : Request) (payload : List Byte) :
    (frame p r payload).drop 2 = covered p r payload ++ [checksum p r payload] := rfl

/-- What is added to one covered byte is taken from the checksum. -/
theorem not8_sum8_add_byte (before after : List Byte) (b d : Byte) :
    not8 (sum8 (before ++ [add8 b d] ++ after)) = not8 (sum8 (before ++ [b] ++ after)) - d := by
  simp only [sum8_append, sum8_cons, sum8_nil, not8_eq_sub, add8]
  ring

/-- Settles O32, consequence by consequence. -/
theorem checksumConsequences : Obligations.ChecksumConsequences := by
  intro p r payload
  refine ⟨add8_not8 _, ?_, not8_eq_255_iff _, not8_eq_zero_iff _, not8_sum8_add_byte, fun _ => rfl, fun other h => ?_⟩
  · rw [frame_drop_two, sum8_snoc]
    exact add8_not8 _
  · exact congrArg not8 (sum8_perm (h.append_left _))

end Sys2Proof.Machine
end

section
/-! PROOF. BUILD of a payload the `req_len` port cannot express (30_encoding.md R72). -/

namespace Sys2Proof.Machine

/-- Settles O23: both forms are the one operation, which refuses such a payload. -/
theorem buildBeyond255BytesRefused : Obligations.BuildBeyond255BytesRefused := by
  intro s did cid seq payload hlen
  have hrefused (ack : Bool) : s.build ack did cid seq payload = .refused (.lengthNotExpressible payload.length) :=
    if_pos hlen
  exact ⟨(exec_build s true ..).trans (hrefused true), (exec_build s false ..).trans (hrefused false)⟩

end Sys2Proof.Machine
end

section
/-! PROOF. A frame in progress, edge by edge (41_emit_phases.md R101 to R111): every edge out of reset carries it on or
completes it, and no edge leaves the invariant. -/

namespace Sys2Proof.Machine

@[simp] theorem clock_markerBByte (s : State) : s.clock.markerBByte = s.markerBByte := by simp [State.markerBByte]

@[simp] theorem clock_summed (s : State) (p : List Byte) : s.clock.summed p = s.summed p := by simp [State.summed]

@[simp] theorem clock_emitted (s : State) (p : List Byte) : s.clock.emitted p = s.emitted p := by simp [State.emitted]

/-- Being in a frame is about the registers, OUT and the parameters, which the environment does not touch. -/
@[simp] theorem clock_inFrame (s : State) (base : List OutByte) (p : List Byte) :
    s.clock.inFrame base p ↔ s.inFrame base p := by
  simp [State.inFrame, State.remAgrees]

theorem clock_inv {s : State} (h : s.inv) : s.clock.inv := by
  simpa [State.inv] using h

/-- ACCEPT of a legal request starts a frame: nothing emitted, nothing consumed (R101). -/
theorem takeRequest_inFrame (s : State) {r : Request} (h : r.len ≠ 255) : (s.takeRequest r).inFrame s.out [] := by
  rw [takeRequest_legal h]
  refine ⟨h, ⟨?_, rfl⟩, rfl, ?_⟩
  · simp
  · simp [State.emitted]

theorem takeRequest_inv (s : State) (r : Request) : (s.takeRequest r).inv := by
  by_cases h : r.len = 255
  · rw [takeRequest_illegal h]
    exact .inr (.inl rfl)
  · exact .inr (.inr ⟨_, _, takeRequest_inFrame s h⟩)

section EmitSteps

variable {s : State} {base : List OutByte} {p : List Byte}

/-- A step that writes the frame's next byte to OUT stays in the frame, if `rem` and `sum` are right after it. -/
theorem inFrame_of_byte {t : State} {q : List Byte} {b : Byte} (h : s.inFrame base p) (hlen : t.lenR = s.lenR)
    (hout : t.out = s.out ++ [{ data := b, last := false }]) (hemit : t.emitted q = s.emitted p ++ [b])
    (hsum : t.sum = sum8 (t.summed q)) (hrem : t.remAgrees q) : t.inFrame base q := by
  obtain ⟨hlegal, -, -, hs⟩ := h
  refine ⟨hlen ▸ hlegal, hrem, hsum, ?_⟩
  simp [hout, hs, hemit]

/-- A step that also adds the byte to `sum`: the covered bytes grow by it. -/
theorem inFrame_of_summed_byte {t : State} {q : List Byte} {b : Byte} (h : s.inFrame base p) (hlen : t.lenR = s.lenR)
    (hout : t.out = s.out ++ [{ data := b, last := false }]) (hemit : t.emitted q = s.emitted p ++ [b])
    (hsum : t.sum = add8 s.sum b) (hsummed : t.summed q = s.summed p ++ [b]) (hrem : t.remAgrees q) :
    t.inFrame base q := by
  have ⟨_, _, hs, _⟩ := h
  exact inFrame_of_byte h hlen hout hemit (by rw [hsum, hsummed, sum8_snoc, hs]) hrem

/-- Where the payload bytes are counted: consumed and remaining make `len_r` (R111 (c)). -/
theorem inFrame_count (h : s.inFrame base p) : p.length + s.rem.toNat = s.lenR.toNat := by
  obtain ⟨-, ⟨hcount, -⟩, -⟩ := h
  exact hcount

theorem inFrame_emitMka (h : s.inFrame base p) (hp : s.phase = .mka) :
    ((s.writeOut s.inst.markerA false).setPhase .mkb).inFrame base p := by
  have ⟨_, ⟨hcount, hrem⟩, hsum, _⟩ := h
  simp only [hp] at hrem
  refine inFrame_of_byte h rfl rfl ?_ ?_ ⟨hcount, hrem⟩
  · simp [State.emitted, hp]
  · simpa [State.summed, hp] using hsum

theorem inFrame_emitMkb (h : s.inFrame base p) (hp : s.phase = .mkb) :
    ((s.writeOut s.markerBByte false).setPhase .did).inFrame base p := by
  have ⟨_, ⟨hcount, hrem⟩, hsum, _⟩ := h
  simp only [hp] at hrem
  refine inFrame_of_byte h rfl rfl ?_ ?_ ⟨hcount, hrem⟩
  · simp [State.emitted, hp, State.markerBByte]
  · simpa [State.summed, hp] using hsum

theorem inFrame_emitDid (h : s.inFrame base p) (hp : s.phase = .did) :
    ((s.emitSummed s.didR).setPhase .cid).inFrame base p := by
  have ⟨_, ⟨hcount, hrem⟩, _⟩ := h
  simp only [hp] at hrem
  refine inFrame_of_summed_byte h rfl rfl ?_ rfl ?_ ⟨hcount, hrem⟩
  · simp [State.emitted, State.summed, hp, State.markerBByte]
  · simp [State.summed, hp]

theorem inFrame_emitCid (h : s.inFrame base p) (hp : s.phase = .cid) :
    ((s.emitSummed s.cidR).setPhase s.afterCid).inFrame base p := by
  have ⟨_, ⟨hcount, hrem⟩, _⟩ := h
  simp only [hp] at hrem
  cases hs : s.inst.seqInFrame with
  | true =>
    rw [State.afterCid, if_pos hs]
    refine inFrame_of_summed_byte h rfl rfl ?_ rfl ?_ ⟨hcount, hrem, hs⟩
    · simp [State.emitted, State.summed, hp, State.markerBByte]
    · simp [State.summed, hp]
  | false =>
    rw [State.afterCid, hs]
    refine inFrame_of_summed_byte h rfl rfl ?_ rfl ?_ ⟨hcount, hrem⟩
    · simp [State.emitted, State.summed, hp, State.markerBByte, seqPart, hs]
    · simp [State.summed, hp, seqPart, hs]

theorem inFrame_emitSeq (h : s.inFrame base p) (hp : s.phase = .seq) :
    ((s.emitSummed s.seqR).setPhase .len).inFrame base p := by
  have ⟨_, ⟨hcount, hrem⟩, _⟩ := h
  simp only [hp] at hrem
  obtain ⟨hnil, hs⟩ := hrem
  refine inFrame_of_summed_byte h rfl rfl ?_ rfl ?_ ⟨hcount, hnil⟩
  · simp [State.emitted, State.summed, hp, State.markerBByte, seqPart, hs]
  · simp [State.summed, hp, seqPart, hs]

/-- The phase after the length byte and after each payload byte: CHK when nothing is left, else PAY (R107, R108). -/
def State.copying (s : State) : Prop := s.phase = if s.rem = 0 then .chk else .pay

theorem copying_summed {t : State} (ht : t.copying) (q : List Byte) : t.summed q = covered t.inst t.latched q := by
  unfold State.copying at ht
  split at ht <;> simp [State.summed, ht]

theorem copying_emitted {t : State} (ht : t.copying) (q : List Byte) :
    t.emitted q = frameBody t.inst t.latched q := by
  rw [frameBody, ← copying_summed ht]
  unfold State.copying at ht
  split at ht <;> simp [State.emitted, ht, State.markerBByte, State.latched]

theorem copying_remAgrees {t : State} (ht : t.copying) {q : List Byte} (hcount : q.length + t.rem.toNat = t.lenR.toNat) :
    t.remAgrees q := by
  refine ⟨hcount, ?_⟩
  unfold State.copying at ht
  split at ht
  · next hrem => simp only [ht, hrem]
  · next hrem =>
    simp only [ht]
    exact Nat.one_le_iff_ne_zero.mpr fun e => hrem (BitVec.eq_of_toNat_eq e)

theorem inFrame_emitLen (h : s.inFrame base p) (hp : s.phase = .len) :
    ((s.emitSummed s.lengthByte).setPhase s.afterLen).inFrame base p := by
  have ⟨_, ⟨hcount, hrem⟩, _⟩ := h
  simp only [hp] at hrem
  subst hrem
  have ht : ((s.emitSummed s.lengthByte).setPhase s.afterLen).copying := rfl
  refine inFrame_of_summed_byte h rfl rfl ?_ rfl ?_ (copying_remAgrees ht hcount)
  · rw [copying_emitted ht]
    simp [frameBody, covered, State.emitted, State.summed, hp, State.latched, State.markerBByte, State.lengthByte]
  · rw [copying_summed ht]
    simp [covered, State.summed, hp, State.latched, State.lengthByte]

/-- In PAY something is left to copy (R111 (c)). -/
theorem inFrame_rem_ne_zero (h : s.inFrame base p) (hp : s.phase = .pay) : s.rem ≠ 0 := by
  obtain ⟨-, ⟨-, hrem⟩, -⟩ := h
  simp only [hp] at hrem
  intro e
  simp [e] at hrem

theorem inFrame_emitPay (h : s.inFrame base p) (hp : s.phase = .pay) (b : Byte) :
    (((s.popPay.emitSummed b).setRem (dec8 s.rem)).setPhase s.afterPay).inFrame base (p ++ [b]) := by
  have hrem := inFrame_rem_ne_zero h hp
  have hcount := inFrame_count h
  have hdec := dec8_toNat hrem
  have hs : s.copying := by rw [State.copying, if_neg hrem, hp]
  have ht : (((s.popPay.emitSummed b).setRem (dec8 s.rem)).setPhase s.afterPay).copying := by
    have hlast : dec8 s.rem = 0 ↔ s.rem = 1 := by rw [dec8_of_ne hrem, sub_eq_zero]
    simp only [State.copying, setPhase_phase, setPhase_rem, setRem_rem, hlast, State.afterPay]
  refine inFrame_of_summed_byte h rfl rfl ?_ rfl ?_ (copying_remAgrees ht ?_)
  · rw [copying_emitted ht, copying_emitted hs]
    simp [frameBody, covered_snoc]
  · rw [copying_summed ht, copying_summed hs]
    simp [covered_snoc]
  · simp
    bv_omega

/-- EMIT_CHK completes the frame: all payload bytes are consumed, and OUT has gained exactly the frame (R81, R109). -/
theorem inFrame_emitChk (h : s.inFrame base p) (hp : s.phase = .chk) :
    p.length = s.lenR.toNat ∧ (s.writeOut s.checksumByte true).out = base ++ frameOut s.inst s.latched p := by
  obtain ⟨-, ⟨hcount, hrem⟩, hsum, hout⟩ := h
  simp only [hp] at hrem
  have hs : s.copying := by rw [State.copying, if_pos hrem, hp]
  rw [copying_summed hs] at hsum
  rw [copying_emitted hs] at hout
  refine ⟨by simpa [hrem] using hcount, ?_⟩
  simp [hout, frameOut, State.checksumByte, hsum, checksum]

/-- The edge of a step that takes no payload byte: its result, or its hold when the sink is not ready. -/
theorem exists_step_inFrame_of_edge {u : State} (h : s.inFrame base p)
    (hstep : step s = .next (if s.pins.outReady then u else s).clock) (hpay : s.phase ≠ .pay)
    (hu : s.pins.outReady = true → u.inFrame base p) :
    ∃ t, step s = .next t ∧ t.inFrame base (p ++ s.plHandshake.toList) := by
  refine ⟨_, hstep, ?_⟩
  rw [plHandshake_of_not_pay hpay, Option.toList_none, List.append_nil, clock_inFrame]
  cases ho : s.pins.outReady with
  | true => exact hu ho
  | false => exact h

theorem plHandshake_of_pay (hr : s.pins.rst = false) (hp : s.phase = .pay) :
    s.plHandshake = if s.pins.outReady then s.plPort else none := by
  simp [State.plHandshake, State.plReady, hr, hp]

/-- EMIT_PAY takes the byte it copies; it holds when none is offered or the sink is not ready (R108, R155). -/
theorem exists_step_inFrame_of_pay (h : s.inFrame base p) (hr : s.pins.rst = false) (hp : s.phase = .pay) :
    ∃ t, step s = .next t ∧ t.inFrame base (p ++ s.plHandshake.toList) := by
  refine ⟨_, step_pay hr hp, ?_⟩
  rw [plHandshake_of_pay hr hp, clock_inFrame]
  cases s.plPort with
  | none => simpa using h
  | some b =>
    cases s.pins.outReady with
    | true => exact inFrame_emitPay h hp b
    | false => simpa using h

/-- Every edge out of reset carries a frame on by the payload byte it takes, unless it hands over the checksum. -/
theorem exists_step_inFrame (h : s.inFrame base p) (hr : s.pins.rst = false)
    (hgo : ¬(s.phase = .chk ∧ s.pins.outReady = true)) :
    ∃ t, step s = .next t ∧ t.inFrame base (p ++ s.plHandshake.toList) := by
  have ⟨_, ⟨_, hrem⟩, _⟩ := h
  cases hp : s.phase <;> simp only [hp] at hrem
  case mka => exact exists_step_inFrame_of_edge h (step_mka hr hp) (by simp [hp]) fun _ => inFrame_emitMka h hp
  case mkb => exact exists_step_inFrame_of_edge h (step_mkb hr hp) (by simp [hp]) fun _ => inFrame_emitMkb h hp
  case did => exact exists_step_inFrame_of_edge h (step_did hr hp) (by simp [hp]) fun _ => inFrame_emitDid h hp
  case cid => exact exists_step_inFrame_of_edge h (step_cid hr hp) (by simp [hp]) fun _ => inFrame_emitCid h hp
  case seq => exact exists_step_inFrame_of_edge h (step_seq hr hp hrem.2) (by simp [hp]) fun _ => inFrame_emitSeq h hp
  case len => exact exists_step_inFrame_of_edge h (step_len hr hp) (by simp [hp]) fun _ => inFrame_emitLen h hp
  case pay => exact exists_step_inFrame_of_pay h hr hp
  case chk => exact exists_step_inFrame_of_edge h (step_chk hr hp) (by simp [hp]) fun ho => absurd ⟨hp, ho⟩ hgo

/-- The edge that hands over the checksum ends the frame in IDLE, OUT having gained exactly the frame. -/
theorem exists_step_of_checksum (h : s.inFrame base p) (hr : s.pins.rst = false) (hp : s.phase = .chk)
    (ho : s.pins.outReady = true) :
    ∃ t, step s = .next t ∧ t.phase = .idle ∧ p.length = s.lenR.toNat ∧
      t.out = base ++ frameOut s.inst s.latched p := by
  obtain ⟨hlen, hout⟩ := inFrame_emitChk h hp
  refine ⟨_, step_chk hr hp, ?_⟩
  rw [if_pos ho]
  exact ⟨clock_phase _, hlen, (clock_out _).trans hout⟩

end EmitSteps

/-- From the invariant every edge has a next state, which meets it again (R111). -/
theorem exists_step_of_inv {s : State} (h : s.inv) : ∃ t, step s = .next t ∧ t.inv := by
  cases hr : s.pins.rst with
  | true => exact ⟨_, step_rst hr, clock_inv (.inl rfl)⟩
  | false =>
    obtain hp | hp | ⟨base, p, h⟩ := id h
    · refine ⟨_, step_idle hr hp, clock_inv ?_⟩
      cases s.reqPort with
      | none => exact h
      | some r => exact takeRequest_inv s r
    · exact ⟨_, step_fault hr hp, clock_inv h⟩
    · by_cases hdone : s.phase = .chk ∧ s.pins.outReady = true
      · obtain ⟨hp, ho⟩ := hdone
        obtain ⟨t, hstep, hidle, -⟩ := exists_step_of_checksum h hr hp ho
        exact ⟨t, hstep, .inl hidle⟩
      · obtain ⟨t, hstep, ht⟩ := exists_step_inFrame h hr hdone
        exact ⟨t, hstep, .inr (.inr ⟨_, _, ht⟩)⟩

/-- From the invariant a run of any length has a last state. -/
theorem exists_run_of_inv (n : Nat) {s : State} (h : s.inv) : ∃ t, runEdges n s = .next t := by
  induction n generalizing s with
  | zero => exact ⟨s, rfl⟩
  | succ n ih =>
    obtain ⟨u, hstep, hu⟩ := exists_step_of_inv h
    obtain ⟨t, ht⟩ := ih hu
    exact ⟨t, (run_of_step hstep).trans ht⟩

end Sys2Proof.Machine
end

section
/-! PROOF. What an edge leaves of the environment's plan, and of PAY while the producer empties nothing
(70_reset_and_hazards.md R173, R182). -/

namespace Sys2Proof.Machine

/-- An edge with a next state is its operation and then the environment's move. -/
theorem exists_exec_of_step {s t : State} (h : step s = .next t) :
    ∃ i u, s.fetch = .ok i ∧ exec i s = .next u ∧ t = u.clock := by
  unfold step at h
  cases hf : s.fetch with
  | error e => simp [hf] at h
  | ok i =>
    simp only [hf] at h
    cases he : exec i s with
    | next u =>
      rw [he] at h
      cases h
      exact ⟨i, u, rfl, he, rfl⟩
    | fault f => simp [he, afterEdge] at h
    | refused r => simp [he, afterEdge] at h

/-- The levels and the plan of the environment are those of `s`. -/
def State.sameEnvironment (s u : State) : Prop := u.pins = s.pins ∧ u.env = s.env

theorem onEmit_sameEnvironment {s t : State} (own : Phase) (h : s.sameEnvironment t) :
    s.sameEnvironment (s.onEmit own t) := by
  obtain ⟨-, -, heq⟩ | heq := onEmit_cases s own t <;> rw [heq]
  · exact h
  · exact ⟨rfl, rfl⟩

theorem takeRequest_sameEnvironment (s : State) (r : Request) : s.sameEnvironment (s.takeRequest r) := by
  unfold State.takeRequest
  split <;> exact ⟨rfl, rfl⟩

theorem build_sameEnvironment {s u : State} {ack : Bool} {did cid seq : Byte} {payload : List Byte}
    (h : s.build ack did cid seq payload = .next u) : s.sameEnvironment u := by
  obtain ⟨-, heq⟩ | ⟨-, -, heq⟩ | ⟨-, -, heq⟩ | ⟨-, -, heq⟩ := build_cases s ack did cid seq payload <;>
    cases heq.symm.trans h <;> exact ⟨rfl, rfl⟩

/-- No operation touches the levels or the plan. -/
theorem exec_sameEnvironment {s u : State} {i : Instr} (h : exec i s = .next u) : s.sameEnvironment u := by
  cases i
  case buildAck | buildNoack => exact build_sameEnvironment h
  case accept =>
    cases h
    cases s.reqHandshake with
    | none => exact ⟨rfl, rfl⟩
    | some r => exact takeRequest_sameEnvironment s r
  case emitMka | emitMkb | emitDid | emitCid | emitLen | emitChk =>
    cases h
    exact onEmit_sameEnvironment _ ⟨rfl, rfl⟩
  case emitSeq =>
    simp only [exec, execEmitSeq] at h
    split at h <;> cases h
    exact onEmit_sameEnvironment _ ⟨rfl, rfl⟩
  case emitPay =>
    cases h
    cases s.plPort with
    | none => exact ⟨rfl, rfl⟩
    | some b => exact onEmit_sameEnvironment _ ⟨rfl, rfl⟩
  case faulted =>
    cases h
    exact ⟨rfl, rfl⟩
  case reset =>
    cases h
    split <;> exact ⟨rfl, rfl⟩

theorem clock_noReset {s : State} (h : s.noReset) : s.clock.noReset := by
  have ⟨_, hplan⟩ := h
  cases he : s.env with
  | nil => rwa [clock_idle s he]
  | cons m rest =>
    simp only [he, List.forall_mem_cons] at hplan
    simpa only [State.noReset, State.clock, he] using hplan

theorem clock_noFlush {s : State} (h : s.noFlush) : s.clock.noFlush := by
  have hplan := h
  cases he : s.env with
  | nil => rwa [clock_idle s he]
  | cons m rest =>
    simp only [State.noFlush, he, List.forall_mem_cons] at hplan
    simpa only [State.noFlush, State.clock, he] using hplan.2

/-- A producer that empties nothing only adds at the end of PAY. -/
theorem pay_prefix_clock {s : State} (h : s.noFlush) : s.pay <+: s.clock.pay := by
  cases he : s.env with
  | nil => rw [clock_idle s he]
  | cons m rest =>
    have hm : m.pays.flush = false := h m (by simp [he])
    simp [State.clock, he, Supply.apply, hm]

theorem step_noReset {s t : State} (h : step s = .next t) (hs : s.noReset) : t.noReset := by
  obtain ⟨i, u, -, hexec, rfl⟩ := exists_exec_of_step h
  obtain ⟨hpins, henv⟩ := exec_sameEnvironment hexec
  exact clock_noReset (by rwa [State.noReset, hpins, henv])

theorem step_noFlush {s t : State} (h : step s = .next t) (hs : s.noFlush) : t.noFlush := by
  obtain ⟨i, u, -, hexec, rfl⟩ := exists_exec_of_step h
  obtain ⟨-, henv⟩ := exec_sameEnvironment hexec
  exact clock_noFlush (by rwa [State.noFlush, henv])

/-- The byte handed over on PAY is its head (R42). -/
theorem plHandshake_append_tail (s : State) :
    s.plHandshake.toList ++ (if s.plHandshake.isSome then s.pay.tail else s.pay) = s.pay := by
  cases h : s.plHandshake with
  | none => rfl
  | some b =>
    have hport : s.plPort = some b := by
      unfold State.plHandshake at h
      split at h
      · exact h
      · cases h
    obtain ⟨-, rest, hpay⟩ := plPort_some hport
    simp [hpay]

/-- While nothing is emptied, PAY loses the byte handed over and no other. -/
theorem pay_prefix_step {s t : State} (h : step s = .next t) (hs : s.noFlush) :
    s.pay <+: s.plHandshake.toList ++ t.pay := by
  obtain ⟨i, u, hfetch, hexec, rfl⟩ := exists_exec_of_step h
  obtain ⟨-, henv⟩ := exec_sameEnvironment hexec
  obtain ⟨-, -, hpay⟩ := exec_movesByHandshakes hfetch hexec
  have hu : u.noFlush := by rwa [State.noFlush, henv]
  calc s.pay = s.plHandshake.toList ++ u.pay := by rw [hpay, plHandshake_append_tail]
    _ <+: s.plHandshake.toList ++ u.clock.pay := (List.prefix_append_right_inj _).mpr (pay_prefix_clock hu)

end Sys2Proof.Machine
end

section
/-! PROOF. Runs of a frame in progress (40_build.md R81, R88). -/

namespace Sys2Proof.Machine

/-- The payload bytes consumed are the first of those supplied, as long as the frame needs no more than these. -/
theorem inFrame_consumed_eq_take {s : State} {base : List OutByte} {p bytes : List Byte} (h : s.inFrame base p)
    (hbytes : bytes <+: p ++ s.pay) (hlen : s.lenR.toNat ≤ bytes.length) : p = bytes.take p.length := by
  have hcount := inFrame_count h
  exact List.prefix_iff_eq_take.mp (List.prefix_of_prefix_length_le (List.prefix_append ..) hbytes (by omega))

/-- A frame keeps its request from edge to edge. -/
theorem step_latched_inFrame {s t : State} {base : List OutByte} {p : List Byte} (h : s.inFrame base p)
    (hstep : step s = .next t) (hr : s.pins.rst = false) : t.latched = s.latched := by
  obtain ⟨-, ⟨-, hrem⟩, -⟩ := h
  exact step_latched_of_no_request hstep hr (reqHandshake_of_not_idle fun hp => by simp only [hp] at hrem)

/-- A run that begins inside a frame, no reset and no loss of payload bytes being planned, is still inside it after `n`
edges or has completed it at one of them. By induction on the edges: each carries the frame on or completes it. -/
theorem exists_run_inFrame {base : List OutByte} {bytes : List Byte} (n : Nat) {s : State} {p : List Byte}
    (h : s.inFrame base p) (hreset : s.noReset) (hflush : s.noFlush) (hbytes : bytes <+: p ++ s.pay)
    (hlen : s.lenR.toNat ≤ bytes.length) :
    ∃ t, runEdges n s = .next t ∧
      ((∃ k, k ≤ s.lenR.toNat ∧ t.latched = s.latched ∧ t.inst = s.inst ∧ t.inFrame base (bytes.take k)) ∨
        ∃ m u, m ≤ n ∧ runEdges m s = .next u ∧ u.phase = .idle ∧
          u.out = base ++ frameOut s.inst s.latched (bytes.take s.lenR.toNat)) := by
  induction n generalizing s p with
  | zero =>
    have hcount := inFrame_count h
    rw [inFrame_consumed_eq_take h hbytes hlen] at h
    exact ⟨s, rfl, .inl ⟨p.length, by omega, rfl, rfl, h⟩⟩
  | succ n ih =>
    have ⟨hr, _⟩ := hreset
    by_cases hdone : s.phase = .chk ∧ s.pins.outReady = true
    · obtain ⟨hp, ho⟩ := hdone
      obtain ⟨u, hstep, hidle, hall, hout⟩ := exists_step_of_checksum h hr hp ho
      obtain ⟨t, hrun⟩ := exists_run_of_inv n (.inl hidle : u.inv)
      rw [inFrame_consumed_eq_take h hbytes hlen, hall] at hout
      exact ⟨t, (run_of_step hstep).trans hrun, .inr ⟨1, u, by omega, run_of_step hstep, hidle, hout⟩⟩
    · obtain ⟨v, hstep, hv⟩ := exists_step_inFrame h hr hdone
      have hlatched := step_latched_inFrame h hstep hr
      have hlenR : v.lenR = s.lenR := congrArg Request.len hlatched
      have hpay : bytes <+: (p ++ s.plHandshake.toList) ++ v.pay := by
        rw [List.append_assoc]
        exact hbytes.trans ((List.prefix_append_right_inj p).mpr (pay_prefix_step hstep hflush))
      obtain ⟨t, hrun, hend⟩ :=
        ih hv (step_noReset hstep hreset) (step_noFlush hstep hflush) hpay (by rwa [hlenR])
      rw [hlatched, step_inst hstep, hlenR] at hend
      refine ⟨t, (run_of_step hstep).trans hrun, hend.imp_right ?_⟩
      rintro ⟨m, u, hm, hu, hdone⟩
      exact ⟨m + 1, u, Nat.succ_le_succ hm, (run_of_step hstep).trans hu, hdone⟩

/-- Settles O44: the first edge is the ACCEPT of the request, and the run goes on from the frame it starts. -/
theorem stepsPerformBuildAtAnyPace : Obligations.StepsPerformBuildAtAnyPace := by
  intro s r rest hidle hvalid hreq hlegal hlen hreset hflush n
  have hport : s.reqPort = some r := by simp [State.reqPort, hvalid, hreq]
  have hstep := step_of_reqHandshake (reqHandshake_eq_some_iff.mpr ⟨hreset.1, hidle, hport⟩)
  have hframe := (clock_inFrame ..).mpr (takeRequest_inFrame s hlegal)
  have hlatched : (s.takeRequest r).clock.latched = r := by rw [clock_latched, takeRequest_latched, if_neg hlegal]
  have hlenR : (s.takeRequest r).clock.lenR = r.len := congrArg Request.len hlatched
  have hpay : s.pay <+: s.plHandshake.toList ++ (s.takeRequest r).clock.pay := pay_prefix_step hstep hflush
  rw [plHandshake_of_not_pay (by simp [hidle])] at hpay
  obtain ⟨t, hrun, hend⟩ :=
    exists_run_inFrame n hframe (step_noReset hstep hreset) (step_noFlush hstep hflush) hpay (by rwa [hlenR])
  rw [hlatched, step_inst hstep, hlenR] at hend
  refine ⟨t, (run_of_step hstep).trans hrun, hend.imp_right ?_⟩
  rintro ⟨m, u, hm, hu, hdone⟩
  exact ⟨m, u, hm, (run_of_step hstep).trans hu, hdone⟩

end Sys2Proof.Machine
end

section
/-! PROOF. One request carried out while nobody waits (40_build.md R81, R88, R89, 70_reset_and_hazards.md R184): every
edge of the frame hands over a byte, and the last one leaves the state that BUILD leaves. -/

namespace Sys2Proof.Machine

section

variable {s : State} {base : List OutByte} {p : List Byte}

theorem inFrame_phase_ne_idle (h : s.inFrame base p) : s.phase ≠ .idle := by
  obtain ⟨-, ⟨-, hrem⟩, -⟩ := h
  intro hp
  simp only [hp] at hrem

/-- The checksum is next exactly when the `L + 5 + S` bytes before it are out (R50). -/
theorem inFrame_emitted_length_iff (h : s.inFrame base p) :
    (s.emitted p).length = s.lenR.toNat + 5 + seqCount s.inst ↔ s.phase = .chk := by
  have hcount := inFrame_count h
  have ⟨_, ⟨_, hrem⟩, _⟩ := h
  cases hp : s.phase <;> simp only [hp] at hrem
  case seq =>
    have hseq : seqCount s.inst = 1 := if_pos hrem.2
    simp [State.emitted, State.summed, hp]
    omega
  case chk =>
    have hzero : s.rem.toNat = 0 := congrArg BitVec.toNat hrem
    simp [State.emitted, State.summed, hp]
    omega
  case mka | mkb | did | cid | len | pay =>
    simp [State.emitted, State.summed, hp]
    omega

theorem inFrame_out_length (h : s.inFrame base p) : s.out.length = base.length + (s.emitted p).length := by
  obtain ⟨-, -, -, hout⟩ := h
  simp [hout, untagged]

end

theorem rst_of_willing {s : State} (hw : s.willing) : s.pins.rst = false := congrArg Pins.rst hw.1

theorem outReady_of_willing {s : State} (hw : s.willing) : s.pins.outReady = true := congrArg Pins.outReady hw.1

/-- An edge in a willing environment moves the streams by its handshakes, and nothing else does (log entry 5). -/
theorem step_movesByHandshakes_of_willing {s t : State} (hw : s.willing) (h : step s = .next t) :
    s.movesByHandshakes t ∧ t.willing := by
  obtain ⟨hpins, henv⟩ := hw
  obtain ⟨i, u, hfetch, hexec, rfl⟩ := exists_exec_of_step h
  obtain ⟨hupins, huenv⟩ := exec_sameEnvironment hexec
  rw [clock_idle u (huenv.trans henv)]
  exact ⟨exec_movesByHandshakes hfetch hexec, hupins.trans hpins, huenv.trans henv⟩

/-- `s` is inside the frame of the request `r` at the head of REQ in `s₀`, nobody having waited or added anything since
`s₀`; `p` are the payload bytes consumed. -/
structure State.building (s₀ : State) (r : Request) (p : List Byte) (s : State) : Prop where
  inFrame : s.inFrame s₀.out p
  latched : s.latched = r
  inst : s.inst = s₀.inst
  req : s.req = s₀.req.tail
  pay : p ++ s.pay = s₀.pay
  willing : s.willing
  willing₀ : s₀.willing

section

variable {s₀ s : State} {r : Request} {p : List Byte}

theorem building_count (h : s₀.building r p s) : p.length + s.rem.toNat = r.len.toNat := by
  rw [← h.latched]
  exact inFrame_count h.inFrame

theorem building_chk_iff (h : s₀.building r p s) :
    s.out.length = s₀.out.length + (r.len.toNat + 5 + seqCount s₀.inst) ↔ s.phase = .chk := by
  rw [inFrame_out_length h.inFrame, Nat.add_left_cancel_iff, ← h.inst, ← h.latched]
  exact inFrame_emitted_length_iff h.inFrame

/-- Every phase of the frame offers a byte; in PAY one is still to be copied, so PAY holds it. -/
theorem building_outHandshake_isSome (h : s₀.building r p s) (hlen : r.len.toNat ≤ s₀.pay.length) :
    s.outHandshake.isSome := by
  have ⟨hpins, _⟩ := h.willing
  have hcount := building_count h
  have hdata : s.outHandshake = s.outData := by simp [State.outHandshake, hpins, Pins.willing]
  have ⟨_, ⟨_, hrem⟩, _⟩ := h.inFrame
  rw [hdata]
  cases hp : s.phase <;> simp only [hp] at hrem <;> simp only [State.outData, hp, Option.isSome_some]
  case pay =>
    have hpay : s.pay ≠ [] := by
      intro hnil
      simp [← h.pay, hnil] at hlen
      omega
    simpa [State.plPort, hpins, Pins.willing] using hpay

/-- ACCEPT of a legal record begins such a frame, with nothing emitted (R101). -/
theorem exists_step_building_of_idle {rest : List Request} (hp : s.phase = .idle) (hw : s.willing)
    (hreq : s.req = r :: rest) (hlegal : r.len ≠ 255) :
    ∃ t, step s = .next t ∧ s.building r [] t ∧ t.out = s.out := by
  have ⟨hpins, henv⟩ := hw
  have hport : s.reqPort = some r := by simp [State.reqPort, hpins, Pins.willing, hreq]
  have hstep := step_of_reqHandshake (reqHandshake_eq_some_iff.mpr ⟨rst_of_willing hw, hp, hport⟩)
  obtain ⟨hpins', henv'⟩ := takeRequest_sameEnvironment s r
  obtain ⟨hout, htail, hpay⟩ := takeRequest_streams s r
  rw [clock_idle _ (henv'.trans henv)] at hstep
  refine ⟨_, hstep, ?_, hout⟩
  exact
    { inFrame := takeRequest_inFrame s hlegal
      latched := by rw [takeRequest_latched, if_neg hlegal]
      inst := takeRequest_inst s r
      req := htail
      pay := hpay
      willing := ⟨hpins'.trans hpins, henv'.trans henv⟩
      willing₀ := hw }

/-- Before the checksum every edge hands over one byte and stays in the frame. -/
theorem exists_step_building (h : s₀.building r p s) (hlen : r.len.toNat ≤ s₀.pay.length) (hchk : s.phase ≠ .chk) :
    ∃ t q, step s = .next t ∧ s₀.building r q t ∧ t.out.length = s.out.length + 1 := by
  have hr := rst_of_willing h.willing
  obtain ⟨t, hstep, ht⟩ := exists_step_inFrame h.inFrame hr fun hdone => hchk hdone.1
  obtain ⟨⟨hout, hreq, hpay⟩, hwilling⟩ := step_movesByHandshakes_of_willing h.willing hstep
  rw [reqHandshake_of_not_idle (inFrame_phase_ne_idle h.inFrame)] at hreq
  obtain ⟨b, hb⟩ := Option.isSome_iff_exists.mp (building_outHandshake_isSome h hlen)
  refine ⟨t, p ++ s.plHandshake.toList, hstep, ?_, by simp [hout, hb]⟩
  exact
    { inFrame := ht
      latched := (step_latched_inFrame h.inFrame hstep hr).trans h.latched
      inst := (step_inst hstep).trans h.inst
      req := hreq.trans h.req
      pay := by rw [List.append_assoc, hpay, plHandshake_append_tail, h.pay]
      willing := hwilling
      willing₀ := h.willing₀ }

/-- The edge that hands over the checksum leaves the state in which BUILD leaves the block (log entry 7). -/
theorem step_chk_building (h : s₀.building r p s) (hchk : s.phase = .chk) : step s = .next (s₀.buildHead r) := by
  obtain ⟨hcount, hout⟩ := inFrame_emitChk h.inFrame hchk
  obtain ⟨-, ⟨-, hrem⟩, hsum, -⟩ := h.inFrame
  obtain ⟨hpins, henv⟩ := h.willing
  obtain ⟨hpins₀, henv₀⟩ := h.willing₀
  simp only [hchk] at hrem
  simp only [State.summed, hchk, h.inst] at hsum
  rw [h.inst] at hout
  obtain rfl := h.latched
  have htake : s₀.pay.take s.latched.len.toNat = p := by
    rw [← h.pay]
    exact List.take_left' hcount
  have hdrop : s₀.pay.drop s.latched.len.toNat = s.pay := by
    rw [← h.pay]
    exact List.drop_left' hcount
  rw [step_chk (rst_of_willing h.willing) hchk, if_pos (outReady_of_willing h.willing),
    clock_idle _ (by simpa using henv)]
  congr 1
  refine State.ext_fields ⟨rfl, rfl, rfl, rfl, rfl, rfl, hrem, ?_, h.req, hdrop.symm, ?_, hpins.trans hpins₀.symm,
    henv.trans henv₀.symm, h.inst⟩
  · rw [buildHead_sum, htake]
    exact hsum
  · rw [buildHead_out, htake]
    exact hout

/-- The rest of the frame takes an edge for each byte before the checksum, and one for the checksum. -/
theorem run_building {n : Nat} (h : s₀.building r p s) (hlen : r.len.toNat ≤ s₀.pay.length)
    (hn : s.out.length + n = s₀.out.length + (r.len.toNat + 5 + seqCount s₀.inst)) :
    runEdges (n + 1) s = .next (s₀.buildHead r) := by
  induction n generalizing s p with
  | zero => exact run_of_step (step_chk_building h ((building_chk_iff h).mp hn))
  | succ n ih =>
    have hchk : s.phase ≠ .chk := fun hchk => by
      have hall := (building_chk_iff h).mpr hchk
      omega
    obtain ⟨t, q, hstep, ht, hone⟩ := exists_step_building h hlen hchk
    rw [run_of_step hstep]
    exact ih ht (by omega)

/-- THE BEST CASE: the `L + 7 + S` edges of a request that nobody delays reach the state that BUILD gives (R184). -/
theorem run_eq_buildHead {rest : List Request} (hp : s.phase = .idle) (hw : s.willing) (hreq : s.req = r :: rest)
    (hlegal : r.len ≠ 255) (hlen : r.len.toNat ≤ s.pay.length) :
    runEdges (r.len.toNat + 7 + seqCount s.inst) s = .next (s.buildHead r) := by
  obtain ⟨t, hstep, ht, hout⟩ := exists_step_building_of_idle hp hw hreq hlegal
  have hedges : r.len.toNat + 7 + seqCount s.inst = (r.len.toNat + 5 + seqCount s.inst) + 1 + 1 := by omega
  rw [hedges, run_of_step hstep]
  exact run_building ht hlen (by rw [hout])

end

/-- Settles O46: the state that BUILD leaves, written out. -/
theorem bestCaseFrameRun : Obligations.BestCaseFrameRun := by
  intro s r rest hp hw hreq hlegal hlen
  rw [run_eq_buildHead hp hw hreq hlegal hlen]
  congr 1
  refine State.ext_fields ⟨hp.symm, rfl, rfl, rfl, rfl, rfl, rfl, rfl, ?_, rfl, rfl, rfl, rfl, rfl⟩
  rw [buildHead_req, hreq, List.tail_cons]

theorem requestOf_len_ne_255 (did cid seq : Byte) (ack : Bool) {payload : List Byte} (h : payload.length ≤ 254) :
    (requestOf did cid seq ack payload).len ≠ 255 := by
  have hcount := requestOf_len_toNat did cid seq ack h
  bv_omega

/-- BUILD of either form is the run of its steps from the offered request. -/
theorem build_eq_run {s : State} (hp : s.phase = .idle) (hw : s.willing) (hreq : s.req = []) (ack : Bool)
    (did cid seq : Byte) {payload : List Byte} (h : payload.length ≤ 254) :
    s.build ack did cid seq payload =
      runEdges (payload.length + 7 + seqCount s.inst) (s.offer (requestOf did cid seq ack payload) payload) := by
  have hcount := requestOf_len_toNat did cid seq ack h
  have hrun := run_eq_buildHead (s := s.offer (requestOf did cid seq ack payload) payload) (rest := []) hp hw
    (by rw [offer_req, hreq, List.nil_append]) (requestOf_len_ne_255 did cid seq ack h) (by simp [hcount])
  rw [build_of_takesNext (takesNext_of_idle hp (rst_of_willing hw) hreq) ack did cid seq h, ← hrun, hcount, offer_inst]

/-- Settles O47, form by form. -/
theorem buildEqualsItsSteps : Obligations.BuildEqualsItsSteps := by
  intro s did cid seq payload hp hw hreq hlen
  exact ⟨build_eq_run hp hw hreq true did cid seq hlen, build_eq_run hp hw hreq false did cid seq hlen⟩

end Sys2Proof.Machine
end

section
/-! PROOF. What BUILD answers, case by case (40_build.md R81, R85, R90). -/

namespace Sys2Proof.Machine

/-- The length byte of a call's record is `L + 1` (R66). -/
theorem lengthByte_requestOf (did cid seq : Byte) (ack : Bool) {payload : List Byte} (h : payload.length ≤ 254) :
    lengthByte (requestOf did cid seq ack payload).len = BitVec.ofNat 8 (payload.length + 1) := by
  rw [lengthByte_eq_ofNat (requestOf_len_ne_255 did cid seq ack h), requestOf_len_toNat did cid seq ack h]

/-- Settles O19: the block takes the record next, and PAY holds its payload and nothing else. -/
theorem buildWritesItsFrame : Obligations.BuildWritesItsFrame := by
  intro s did cid seq payload hp hr hreq hpay hlen lb cov done
  have hbuild (ack : Bool) : s.build ack did cid seq payload = .next (done ack (markerB s.inst ack)) := by
    have hcount := requestOf_len_toNat did cid seq ack hlen
    have htake : (s.offer (requestOf did cid seq ack payload) payload).pay.take
        (requestOf did cid seq ack payload).len.toNat = payload := by simp [hpay, hcount]
    have hcov : covered s.inst (requestOf did cid seq ack payload) payload = cov := by
      rw [covered, lengthByte_requestOf did cid seq ack hlen]
      rfl
    rw [build_of_takesNext (takesNext_of_idle hp hr hreq) ack did cid seq hlen]
    congr 1
    refine State.ext_fields ⟨hp.symm, rfl, rfl, rfl, rfl, rfl, rfl, ?_, ?_, ?_, ?_, rfl, rfl, rfl⟩
    · rw [buildHead_sum, htake, offer_inst, hcov]
    · simp [hreq, done]
    · simp [hpay, hcount, done]
    · rw [buildHead_out, htake, offer_inst, frameOut, frameBody, checksum, hcov]
      exact (List.append_assoc ..).symm
  exact ⟨hbuild true, hbuild false⟩

/-- Settles O21: the block takes the record next, its `len` is 255, and the fault entry writes the phase alone. -/
theorem buildOf255BytesFaults : Obligations.BuildOf255BytesFaults := by
  intro s did cid seq payload hp hr hreq hlen
  have hn := takesNext_of_idle hp hr hreq
  have hbuild (ack : Bool) : s.build ack did cid seq payload =
      .next { s with phase := .fault, pay := s.pay ++ payload } := by
    obtain ⟨hlong, -⟩ | ⟨-, hwait, -⟩ | ⟨-, -, heq⟩ | ⟨hlegal, -⟩ := build_cases s ack did cid seq payload
    · omega
    · simp [hn] at hwait
    · rw [heq]
      congr 1
      refine State.ext_fields ⟨rfl, rfl, rfl, rfl, rfl, rfl, rfl, rfl, ?_, rfl, rfl, rfl, rfl, rfl⟩
      simp [hreq]
    · omega
  exact ⟨hbuild true, hbuild false⟩

/-- A block that is busy, faulted or in reset, or that has an older request waiting, does not take a new one next. -/
theorem takesNext_eq_false_iff (s : State) :
    s.takesNext = false ↔ s.phase ≠ .idle ∨ s.pins.rst = true ∨ s.req ≠ [] := by
  cases hr : s.pins.rst <;> simp [State.takesNext, State.reqReady, hr, or_iff_not_imp_left]

/-- Settles O22: the request is offered, and nothing of it is carried out. -/
theorem buildWaitsItsTurn : Obligations.BuildWaitsItsTurn := by
  intro s did cid seq payload hlen hbusy waiting
  have hn := (takesNext_eq_false_iff s).mpr hbusy
  have hbuild (ack : Bool) : s.build ack did cid seq payload = .next (waiting ack) := by
    obtain ⟨hlong, -⟩ | ⟨-, -, heq⟩ | ⟨-, htakes, -⟩ | ⟨-, htakes, -⟩ := build_cases s ack did cid seq payload
    · omega
    · exact heq
    · simp [hn] at htakes
    · simp [hn] at htakes
  exact ⟨hbuild true, hbuild false⟩

end Sys2Proof.Machine
end

section
/-! PROOF. The length and the checksum of a frame, and the bytes that the sequence number and the framing flag reach
(40_build.md R81 to R83, R86, R87). -/

namespace Sys2Proof.Machine

/-- Settles O30: the offset map's length byte is `L + 1`, and the frame's length is counted by parts. -/
theorem frameLengthInvariant : Obligations.FrameLengthInvariant := by
  intro p r payload hlen hr
  have hcount : r.len.toNat = payload.length := by rw [hr, BitVec.toNat_ofNat, Nat.mod_eq_of_lt (by omega)]
  have hlegal : r.len ≠ 255 := by bv_omega
  refine ⟨frame_length p r payload, ?_, ?_⟩
  · rw [← hcount, ← lengthByte_eq_ofNat hlegal]
    exact frame_getElem?_tail p r payload 0
  · rw [frame_length]
    omega

/-- `sum8` is the exact sum modulo 256 (R10). -/
theorem sum8_toNat (bytes : List Byte) : (sum8 bytes).toNat = (bytes.map fun b => b.toNat).sum % 256 := by
  induction bytes with
  | nil => rfl
  | cons b t ih => simp [add8, ih]

/-- Settles O31: between the markers and the checksum stand the covered bytes. -/
theorem frameChecksumInvariant : Obligations.FrameChecksumInvariant := by
  intro p r payload
  refine ⟨?_, sum8_toNat⟩
  rw [frame_drop_two, List.dropLast_concat]
  exact List.getLast?_concat

/-- Another framing flag is another byte 1, and nothing else (R81, R62). -/
theorem frame_withAck (p : Config.Params) (r : Request) (ack : Bool) (payload : List Byte) :
    frame p { r with ack := ack } payload = (frame p r payload).set 1 (markerB p ack) := rfl

/-- Settles O35: one frame is the other with byte 1 replaced, by a marker B that differs (R6). -/
theorem acknowledgeFlagReachesByteOneOnly : Obligations.AcknowledgeFlagReachesByteOneOnly := by
  intro p r payload hp f g
  have hne : p.markerBAck ≠ p.markerBNoack := bne_iff_ne.mp hp
  refine ⟨fun h => hne (Option.some.inj h), fun i hi => ?_⟩
  have hset : g = f.set 1 (markerB p false) := frame_withAck p { r with ack := true } false payload
  rw [hset, List.getElem?_set_ne hi.symm]

/-- With S = 0 the sequence number is nowhere in the frame (R87). -/
theorem frame_withSeq_of_false {p : Config.Params} (hs : p.seqInFrame = false) (r : Request) (q : Byte)
    (payload : List Byte) : frame p { r with seq := q } payload = frame p r payload := by
  simp [frame, frameBody, checksum, covered, seqPart, hs, markerB]

/-- With S = 1 another sequence number is another byte 4 and its checksum, at `6 + L`, and nothing else (R65, R68). -/
theorem frame_withSeq_of_true {p : Config.Params} (hs : p.seqInFrame = true) (r : Request) (q : Byte)
    (payload : List Byte) :
    frame p { r with seq := q } payload =
      ((frame p r payload).set 4 q).set (6 + payload.length) (checksum p { r with seq := q } payload) := by
  have hoff : 6 + payload.length = payload.length + 6 := by omega
  simp [frame_eq_head_append, seqPart, hs, hoff]

/-- With S = 1 the checksum tells two sequence numbers apart: it is the complement of a sum that contains them once. -/
theorem checksum_withSeq_inj {p : Config.Params} (hs : p.seqInFrame = true) (r : Request) (q : Byte)
    (payload : List Byte) : checksum p r payload = checksum p { r with seq := q } payload ↔ r.seq = q := by
  simp [checksum, covered, seqPart, hs, not8_eq_sub, add8]

theorem frame_getElem?_checksum {p : Config.Params} (hs : p.seqInFrame = true) (r : Request) (payload : List Byte) :
    (frame p r payload)[6 + payload.length]? = some (checksum p r payload) := by
  have hoff : 6 + payload.length = 5 + seqCount p + payload.length := by simp [seqCount, hs]
  rw [hoff, frame_getElem?_payload, List.getElem?_concat_length]

/-- Settles O34: with S = 1 one frame is the other with bytes 4 and `6 + L` replaced, by bytes that differ. -/
theorem sequenceNumberReachesTwoBytes : Obligations.SequenceNumberReachesTwoBytes := by
  intro p r q payload f g
  refine ⟨fun hs => (frame_withSeq_of_false hs r q payload).symm, fun hs => ⟨fun i hseq hchk => ?_, fun hne => ?_⟩⟩
  · have hset : g = (f.set 4 q).set _ _ := frame_withSeq_of_true hs r q payload
    rw [hset, List.getElem?_set_ne hchk.symm, List.getElem?_set_ne hseq.symm]
  · constructor
    · rw [frame_getElem?_seq hs, frame_getElem?_seq hs]
      exact fun h => hne (Option.some.inj h)
    · rw [frame_getElem?_checksum hs, frame_getElem?_checksum hs]
      exact fun h => hne ((checksum_withSeq_inj hs r q payload).mp (Option.some.inj h))

end Sys2Proof.Machine
end

section
/-! PROOF. What one edge does to a frame and to the invariant, for every next state (41_emit_phases.md R101 to R111). -/

namespace Sys2Proof.Machine

/-- Settles O41: RESET leaves an idle block, and from the invariant the edge's one next state meets it again. -/
theorem everyStepKeepsTheInvariant : Obligations.EveryStepKeepsTheInvariant := by
  intro s t h
  refine ⟨fun hr => ?_, fun hs => ?_⟩
  · cases (step_rst hr).symm.trans h
    exact clock_inv (.inl rfl)
  · obtain ⟨u, hstep, hu⟩ := exists_step_of_inv hs
    cases hstep.symm.trans h
    exact hu

/-- Settles O43: the edge hands over the checksum and ends the frame, or it carries the frame on. -/
theorem frameAdvancesByOneEdge : Obligations.FrameAdvancesByOneEdge := by
  intro s base p h hr
  by_cases hdone : s.phase = .chk ∧ s.pins.outReady = true
  · obtain ⟨hp, ho⟩ := hdone
    obtain ⟨t, hstep, hend⟩ := exists_step_of_checksum h hr hp ho
    exact ⟨t, hstep, step_latched_inFrame h hstep hr, step_inst hstep, by rwa [if_pos ⟨hp, ho⟩]⟩
  · obtain ⟨t, hstep, ht⟩ := exists_step_inFrame h hr hdone
    exact ⟨t, hstep, step_latched_inFrame h hstep hr, step_inst hstep, by rwa [if_neg hdone]⟩

/-- Settles O42: the edge is the ACCEPT of the record, which starts a frame over the OUT of that moment. -/
theorem acceptStartsAFrame : Obligations.AcceptStartsAFrame := by
  intro s r hreq hlegal
  refine ⟨_, step_of_reqHandshake hreq, ?_, ?_, ?_, ?_⟩
  · rw [clock_phase, takeRequest_legal hlegal, setPhase_phase]
  · rw [clock_latched, takeRequest_latched, if_neg hlegal]
  · rw [clock_inst, takeRequest_inst]
  · exact (clock_inFrame ..).mpr (takeRequest_inFrame s hlegal)

end Sys2Proof.Machine
end

section
/-! PROOF. Which edges have a next state, its phase, and what a hold edge keeps (41_emit_phases.md R100, R110, R112). -/

namespace Sys2Proof.Machine

/-- Settles O1: the selector of an edge is `rst`, else the phase code, and a step is exec of what it decodes to. -/
theorem stepRunsDecodedOperation : Obligations.StepRunsDecodedOperation := by
  intro s i hdecode
  have hfetch : s.fetch = .ok i := hdecode
  have hstep : step s = afterEdge (exec i s) := by simp only [step, hfetch]
  rw [hstep]
  cases exec i s <;> rfl

/-- Settles O3: RESET, or phase by phase; the phase SEQ by S. -/
theorem stepStopsOnlyInAbsentSeq : Obligations.StepStopsOnlyInAbsentSeq := by
  intro s
  refine ⟨fun ⟨hr, hp, hs⟩ => step_seq_absent hr hp hs, fun hgo => ?_⟩
  cases hr : s.pins.rst with
  | true => exact ⟨_, step_rst hr⟩
  | false =>
    cases hp : s.phase with
    | idle => exact ⟨_, step_idle hr hp⟩
    | mka => exact ⟨_, step_mka hr hp⟩
    | mkb => exact ⟨_, step_mkb hr hp⟩
    | did => exact ⟨_, step_did hr hp⟩
    | cid => exact ⟨_, step_cid hr hp⟩
    | seq => exact ⟨_, step_seq hr hp (Bool.eq_true_of_not_eq_false fun hs => hgo ⟨hr, hp, hs⟩)⟩
    | len => exact ⟨_, step_len hr hp⟩
    | pay => exact ⟨_, step_pay hr hp⟩
    | chk => exact ⟨_, step_chk hr hp⟩
    | fault => exact ⟨_, step_fault hr hp⟩

theorem takeRequest_phase (s : State) (r : Request) :
    (s.takeRequest r).phase = if r.len = 255 then .fault else .mka := by
  by_cases h : r.len = 255
  · rw [takeRequest_illegal h, if_pos h, enterLenFault_phase]
  · rw [takeRequest_legal h, if_neg h, setPhase_phase]

/-- A step's result in phase `p`, or its hold. -/
theorem ite_clock_phase {s u : State} {p : Phase} (c : Prop) [Decidable c] (h : u.phase = p) :
    (if c then u else s).clock.phase = if c then p else s.phase := by
  rw [clock_phase, apply_ite State.phase, h]

/-- Settles O4, case by case of what an edge can do. -/
theorem phaseTransitionTable : Obligations.PhaseTransitionTable := by
  intro s t h
  obtain ⟨hr, rfl⟩ | ⟨hr, hphase⟩ := step_cases h
  · rw [if_pos hr, clock_phase, resetRegs_phase]
  · rw [if_neg (by simp [hr])]
    obtain ⟨hp, hport, rfl⟩ | ⟨hp, r, hport, rfl⟩ | ⟨hp, rfl⟩ | ⟨hp, rfl⟩ | ⟨hp, rfl⟩ | ⟨hp, rfl⟩ | ⟨hp, -, rfl⟩ |
      ⟨hp, rfl⟩ | ⟨hp, hport, rfl⟩ | ⟨hp, b, hport, rfl⟩ | ⟨hp, rfl⟩ | ⟨hp, rfl⟩ := hphase <;> simp only [hp]
    · rw [hport, clock_phase, hp] -- IDLE, no request
    · rw [hport, clock_phase, takeRequest_phase] -- IDLE, a request taken
    · rw [ite_clock_phase _ (setPhase_phase ..), hp] -- MKA
    · rw [ite_clock_phase _ (setPhase_phase ..), hp] -- MKB
    · rw [ite_clock_phase _ (setPhase_phase ..), hp] -- DID
    · rw [ite_clock_phase _ (setPhase_phase ..), hp, State.afterCid] -- CID
    · rw [ite_clock_phase _ (setPhase_phase ..), hp] -- SEQ
    · rw [ite_clock_phase _ (setPhase_phase ..), hp, State.afterLen] -- LEN
    · simp [hport, hp] -- PAY, no byte
    · rw [ite_clock_phase _ (setPhase_phase ..), hp, hport, State.afterPay] -- PAY, a byte offered
      simp
    · rw [ite_clock_phase _ (setPhase_phase ..), hp] -- CHK
    · rw [clock_phase, hp] -- FAULT

/-- The environment moves neither registers nor OUT nor the parameters. -/
theorem sameBlock_clock (s : State) : s.sameBlock s.clock := by simp [State.sameBlock]

/-- Settles O5, by the four kinds of hold. -/
theorem holdEdgeChangesNothing : Obligations.HoldEdgeChangesNothing := by
  intro s hr hseq hold
  refine ⟨?_, sameBlock_clock s⟩
  obtain ⟨hp, hport⟩ | ⟨hidle, hpay, hfault, ho⟩ | ⟨hp, hport | ho⟩ | hp := hold
  · simp only [step_idle hr hp, hport]
  · cases hp : s.phase with
    | idle => exact absurd hp hidle
    | mka => simp [step_mka hr hp, ho]
    | mkb => simp [step_mkb hr hp, ho]
    | did => simp [step_did hr hp, ho]
    | cid => simp [step_cid hr hp, ho]
    | seq => simp [step_seq hr hp (hseq hp), ho]
    | len => simp [step_len hr hp, ho]
    | pay => exact absurd hp hpay
    | chk => simp [step_chk hr hp, ho]
    | fault => exact absurd hp hfault
  · simp only [step_pay hr hp, hport]
  · rw [step_pay hr hp]
    cases s.plPort <;> simp [ho]
  · exact step_fault hr hp

end Sys2Proof.Machine
end

section
/-! PROOF. What each operation of a frame does in its phase, and that it does nothing elsewhere (41_emit_phases.md R101
to R109, R112). -/

namespace Sys2Proof.Machine

/-- In its phase, out of reset, with the sink ready, a step that offers a byte completes. -/
theorem onEmit_go {s : State} {own : Phase} (t : State) (hp : s.phase = own) (hr : s.pins.rst = false)
    (ho : s.pins.outReady = true) (hd : s.outData.isSome) : s.onEmit own t = t := by
  rw [onEmit_ready t hr hp hd, if_pos ho]

/-- Out of its phase, in reset or with the sink not ready a step changes nothing. -/
theorem onEmit_hold {s : State} {own : Phase} (t : State)
    (h : s.phase ≠ own ∨ s.pins.rst = true ∨ s.pins.outReady = false) : s.onEmit own t = s := by
  refine if_neg fun ⟨hp, hout⟩ => ?_
  obtain hother | hr | ho := h
  · exact hother hp
  · simp [handshakes_of_rst hr] at hout
  · simp [State.outHandshake, ho] at hout

theorem reqHandshake_eq_none {s : State}
    (h : s.phase ≠ .idle ∨ s.pins.rst = true ∨ s.pins.reqValid = false ∨ s.req = []) : s.reqHandshake = none := by
  obtain hp | hr | hv | hreq := h
  · exact reqHandshake_of_not_idle hp
  · obtain ⟨hnone, -⟩ := handshakes_of_rst hr
    exact hnone
  · simp [State.reqHandshake, State.reqPort, hv]
  · simp [State.reqHandshake, State.reqPort, hreq]

/-- Settles O8: with a record handed over ACCEPT takes it, and without one it holds. -/
theorem acceptTakesTheRequest : Obligations.AcceptTakesTheRequest := by
  intro s
  refine ⟨fun r rest hp hr hv hreq => ?_, fun hnone => ?_⟩
  · have htaken : s.reqHandshake = some r :=
      reqHandshake_eq_some_iff.mpr ⟨hr, hp, by simp [State.reqPort, hv, hreq]⟩
    have hrest : s.popReq = { s with req := rest } := by rw [State.popReq, hreq, List.tail_cons]
    simp only [exec, execAccept, htaken]
    by_cases hlen : r.len = 255
    · rw [takeRequest_illegal hlen, if_pos hlen, hrest]
      rfl
    · rw [takeRequest_legal hlen, if_neg hlen, hrest]
      rfl
  · simp only [exec, execAccept, reqHandshake_eq_none hnone]

/-- Settles O9: each marker step completes with its marker, or holds. -/
theorem emitMarkersWriteTheMarkers : Obligations.EmitMarkersWriteTheMarkers := fun s =>
  ⟨fun hp hr ho => congrArg Host.Outcome.next (onEmit_go _ hp hr ho (by simp [State.outData, hp])),
    fun hp hr ho => congrArg Host.Outcome.next (onEmit_go _ hp hr ho (by simp [State.outData, hp])),
    fun h => congrArg Host.Outcome.next (onEmit_hold _ h),
    fun h => congrArg Host.Outcome.next (onEmit_hold _ h)⟩

/-- Settles O10: each identifier step completes with its latch, or holds. -/
theorem emitIdentifiersWriteAndSum : Obligations.EmitIdentifiersWriteAndSum := fun s =>
  ⟨fun hp hr ho => congrArg Host.Outcome.next (onEmit_go _ hp hr ho (by simp [State.outData, hp])),
    fun hp hr ho => congrArg Host.Outcome.next (onEmit_go _ hp hr ho (by simp [State.outData, hp])),
    fun h => congrArg Host.Outcome.next (onEmit_hold _ h),
    fun h => congrArg Host.Outcome.next (onEmit_hold _ h)⟩

/-- With S = 1 EMIT_SEQ is a step like the others (R106). -/
theorem exec_emitSeq_of_present {s : State} (hs : s.inst.seqInFrame = true) :
    exec .emitSeq s = .next (s.onEmit .seq ((s.emitSummed s.seqR).setPhase .len)) := if_pos hs

/-- SEQ follows only the command-id when S = 1, or itself (R110). -/
theorem phase_of_step_to_seq {s t : State} (h : step s = .next t) (ht : t.phase = .seq) :
    s.phase = .seq ∨ s.phase = .cid ∧ s.inst.seqInFrame = true := by
  have htable := (phaseTransitionTable s t h).symm.trans ht
  cases hp : s.phase with
  | seq => exact .inl rfl
  | cid =>
    cases hs : s.inst.seqInFrame with
    | true => exact .inr ⟨rfl, rfl⟩
    | false => simp [hp, hs, ite_eq_iff] at htable
  | idle => cases hq : s.reqPort <;> simp [hp, hq, ite_eq_iff] at htable
  | mka | mkb | did | len | pay | chk | fault => simp [hp, ite_eq_iff] at htable

/-- Settles O11: EMIT_SEQ completes or holds with S = 1, and the phase table has no way into SEQ with S = 0. -/
theorem emitSeqWritesAndSums : Obligations.EmitSeqWritesAndSums := by
  intro s
  refine ⟨fun hs hp hr ho => ?_, fun hs hhold => ?_, fun t hs hp hstep ht => ?_⟩
  · rw [exec_emitSeq_of_present hs, onEmit_go _ hp hr ho (by simp [State.outData, hp])]
    rfl
  · rw [exec_emitSeq_of_present hs, onEmit_hold _ hhold]
  · obtain hseq | ⟨-, hpresent⟩ := phase_of_step_to_seq hstep ht
    · exact hp hseq
    · simp [hs] at hpresent

/-- Settles O12: with S = 0 the step's guard fails. -/
theorem emitSeqAbsentWithoutSequenceByte : Obligations.EmitSeqAbsentWithoutSequenceByte :=
  fun _ hs => if_neg (by simp [hs])

/-- EMIT_LEN completes with the length byte, whatever `len_r` is. -/
theorem exec_emitLen_go {s : State} (hp : s.phase = .len) (hr : s.pins.rst = false) (ho : s.pins.outReady = true) :
    exec .emitLen s = .next ((s.emitSummed s.lengthByte).setPhase s.afterLen) :=
  congrArg Host.Outcome.next (onEmit_go _ hp hr ho (by simp [State.outData, hp]))

/-- Settles O13: below 255 the length byte is `L + 1`. -/
theorem emitLenWritesLengthPlusOne : Obligations.EmitLenWritesLengthPlusOne := by
  intro s
  refine ⟨fun hp hlen hr ho => ?_, fun hhold => congrArg Host.Outcome.next (onEmit_hold _ hhold)⟩
  rw [exec_emitLen_go hp hr ho, State.lengthByte, lengthByte_eq_ofNat hlen]
  rfl

/-- EMIT_PAY completes with the byte at the head of PAY, whatever `rem` is. -/
theorem exec_emitPay_go {s : State} {b : Byte} {rest : List Byte} (hp : s.phase = .pay) (hr : s.pins.rst = false)
    (ho : s.pins.outReady = true) (hv : s.pins.plValid = true) (hpay : s.pay = b :: rest) :
    exec .emitPay s = .next
      (((({ s with pay := rest } : State).emitSummed b).setRem (dec8 s.rem)).setPhase s.afterPay) := by
  have hport : s.plPort = some b := by simp [State.plPort, hv, hpay]
  have hrest : s.popPay = { s with pay := rest } := by rw [State.popPay, hpay, List.tail_cons]
  simp only [exec, execEmitPay, hport, hrest]
  rw [onEmit_go _ hp hr ho (by simp [State.outData, hp, hport])]

theorem exec_emitPay_hold {s : State}
    (h : s.phase ≠ .pay ∨ s.pins.rst = true ∨ s.pins.outReady = false ∨ s.pins.plValid = false ∨ s.pay = []) :
    exec .emitPay s = .next s := by
  refine congrArg Host.Outcome.next ?_
  cases hport : s.plPort with
  | none => rfl
  | some b =>
    obtain ⟨hv, rest, hpay⟩ := plPort_some hport
    exact onEmit_hold _ (by simpa [hv, hpay] using h)

/-- Settles O14: above 0 `rem` counts down as a number. -/
theorem emitPayCopiesOneByte : Obligations.EmitPayCopiesOneByte := by
  intro s
  refine ⟨fun b rest hp hrem hr ho hv hpay => ?_, exec_emitPay_hold⟩
  have hdec : dec8 s.rem = BitVec.ofNat 8 (s.rem.toNat - 1) := by
    rw [← dec8_toNat hrem, BitVec.ofNat_toNat, BitVec.setWidth_eq]
  rw [exec_emitPay_go hp hr ho hv hpay, hdec]
  rfl

/-- Settles O15: the open values are the model's `inc8` of 255 and `dec8` of 0. -/
theorem openValuesStayInTheirPlace : Obligations.OpenValuesStayInTheirPlace := by
  intro s
  refine ⟨fun hp _ hr ho => ⟨s.lengthByte, exec_emitLen_go hp hr ho⟩, fun b rest hp hrem hr ho hv hpay => ?_⟩
  have hafter : s.afterPay = .pay := if_neg (by simp [hrem])
  refine ⟨dec8 s.rem, ?_⟩
  rw [exec_emitPay_go hp hr ho hv hpay, hafter]
  rfl

/-- The complement as the difference of numbers. -/
theorem not8_eq_ofNat (a : Byte) : not8 a = BitVec.ofNat 8 (255 - a.toNat) := by
  rw [not8_eq_sub]
  bv_omega

/-- Settles O16: EMIT_CHK completes with the complement of `sum`, or holds. -/
theorem emitChkWritesTheComplement : Obligations.EmitChkWritesTheComplement := by
  intro s
  refine ⟨fun hp hr ho => ?_, fun hhold => congrArg Host.Outcome.next (onEmit_hold _ hhold)⟩
  rw [← not8_eq_ofNat]
  exact ⟨_, congrArg Host.Outcome.next (onEmit_go _ hp hr ho (by simp [State.outData, hp])), rfl, rfl⟩

end Sys2Proof.Machine
end

section
/-! PROOF. What the operations leave alone (41_emit_phases.md R101 to R109, R153, R171; 40_build.md R81, R85, R90). -/

namespace Sys2Proof.Machine

/-- What the EMIT step `i` may change between `s` and `t` (R102 to R109). -/
def State.emitFrame (s : State) (i : Instr) (t : State) : Prop :=
  t.latched = s.latched ∧ t.req = s.req ∧ t.pins = s.pins ∧ t.env = s.env ∧ t.inst = s.inst ∧
    s.out <+: t.out ∧ t.out.length ≤ s.out.length + 1 ∧
    (i ∈ [.emitMka, .emitMkb, .emitChk] → t.sum = s.sum) ∧
    (i ≠ .emitPay → t.rem = s.rem ∧ t.pay = s.pay)

theorem emitFrame_hold (s : State) (i : Instr) : s.emitFrame i s :=
  ⟨rfl, rfl, rfl, rfl, rfl, List.prefix_rfl, Nat.le_succ _, fun _ => rfl, fun _ => ⟨rfl, rfl⟩⟩

/-- The EMIT shape: what the step's result keeps the step keeps, since its hold keeps everything. -/
theorem onEmit_emitFrame {s t : State} {i : Instr} (own : Phase) (h : s.emitFrame i t) :
    s.emitFrame i (s.onEmit own t) := by
  obtain ⟨-, -, heq⟩ | heq := onEmit_cases s own t <;> rw [heq]
  · exact h
  · exact emitFrame_hold s i

theorem writeOut_emitFrame (s : State) (i : Instr) (v : Byte) (last : Bool) (p : Phase) :
    s.emitFrame i ((s.writeOut v last).setPhase p) :=
  ⟨rfl, rfl, rfl, rfl, rfl, List.prefix_append .., by simp, fun _ => rfl, fun _ => ⟨rfl, rfl⟩⟩

theorem emitSummed_emitFrame (s : State) {i : Instr} (b : Byte) (p : Phase) (hi : i ∉ [.emitMka, .emitMkb, .emitChk]) :
    s.emitFrame i ((s.emitSummed b).setPhase p) :=
  ⟨rfl, rfl, rfl, rfl, rfl, List.prefix_append .., by simp, fun h => absurd h hi, fun _ => ⟨rfl, rfl⟩⟩

theorem emitPay_emitFrame (s : State) (b v : Byte) (p : Phase) :
    s.emitFrame .emitPay (((s.popPay.emitSummed b).setRem v).setPhase p) :=
  ⟨rfl, rfl, rfl, rfl, rfl, List.prefix_append .., by simp, by simp, fun h => absurd rfl h⟩

/-- Settles O24, step by step: what each writes, or its hold. -/
theorem emitStepsFrame : Obligations.EmitStepsFrame := by
  intro s t i hi h
  change s.emitFrame i t
  cases i
  case emitMka | emitMkb | emitChk =>
    cases h
    exact onEmit_emitFrame _ (writeOut_emitFrame ..)
  case emitDid | emitCid | emitLen =>
    cases h
    exact onEmit_emitFrame _ (emitSummed_emitFrame _ _ _ (by simp))
  case emitSeq =>
    simp only [exec, execEmitSeq] at h
    split at h <;> cases h
    exact onEmit_emitFrame _ (emitSummed_emitFrame _ _ _ (by simp))
  case emitPay =>
    cases h
    cases s.plPort with
    | none => exact emitFrame_hold s _
    | some b => exact onEmit_emitFrame _ (emitPay_emitFrame ..)
  case buildAck | buildNoack | accept | faulted | reset => simp at hi

theorem build_inst {s u : State} {ack : Bool} {did cid seq : Byte} {payload : List Byte}
    (h : s.build ack did cid seq payload = .next u) : u.inst = s.inst := by
  obtain ⟨-, heq⟩ | ⟨-, -, heq⟩ | ⟨-, -, heq⟩ | ⟨-, -, heq⟩ := build_cases s ack did cid seq payload <;>
    cases heq.symm.trans h <;> rfl

/-- ACCEPT holds or takes a record. -/
theorem exec_accept_cases (s : State) :
    exec .accept s = .next s ∨ ∃ r, exec .accept s = .next (s.takeRequest r) := by
  cases h : s.reqHandshake with
  | none => exact .inl (by simp only [exec, execAccept, h])
  | some r => exact .inr ⟨r, by simp only [exec, execAccept, h]⟩

/-- RESET, or nothing when `rst = 0`. -/
theorem exec_reset_cases (s : State) : exec .reset s = .next s ∨ exec .reset s = .next s.resetRegs := by
  cases h : s.pins.rst with
  | false => exact .inl (by simp [exec, execReset, h])
  | true => exact .inr (by simp [exec, execReset, h])

/-- No operation writes the parameters (R5). -/
theorem exec_inst {s u : State} {i : Instr} (h : exec i s = .next u) : u.inst = s.inst := by
  cases i
  case buildAck | buildNoack => exact build_inst h
  case accept =>
    obtain heq | ⟨r, heq⟩ := exec_accept_cases s <;> cases heq.symm.trans h
    · rfl
    · exact takeRequest_inst s r
  case faulted =>
    cases h
    rfl
  case reset => obtain heq | heq := exec_reset_cases s <;> cases heq.symm.trans h <;> rfl
  case emitMka | emitMkb | emitDid | emitCid | emitSeq | emitLen | emitPay | emitChk =>
    obtain ⟨-, -, -, -, hinst, -⟩ := emitStepsFrame s u _ (by simp) h
    exact hinst

/-- ACCEPT takes at most the head of REQ, and nothing else of the streams moves. -/
theorem exec_accept_streams {s t : State} (h : exec .accept s = .next t) :
    t.out = s.out ∧ t.pay = s.pay ∧ (t.req = s.req ∨ t.req = s.req.tail) := by
  obtain heq | ⟨r, heq⟩ := exec_accept_cases s <;> cases heq.symm.trans h
  · exact ⟨rfl, rfl, .inl rfl⟩
  · obtain ⟨hout, hreq, hpay⟩ := takeRequest_streams s r
    exact ⟨hout, hpay, .inr hreq⟩

/-- FAULTED and RESET leave all three streams (R153, R172). -/
theorem exec_system_streams {s t : State} {i : Instr} (hi : i ∈ [.faulted, .reset]) (h : exec i s = .next t) :
    t.out = s.out ∧ t.pay = s.pay ∧ t.req = s.req := by
  obtain rfl | rfl : i = .faulted ∨ i = .reset := by simpa using hi
  · cases h
    exact ⟨rfl, rfl, rfl⟩
  · obtain heq | heq := exec_reset_cases s <;> cases heq.symm.trans h <;> exact ⟨rfl, rfl, rfl⟩

theorem takesNext_eq_true_iff (s : State) :
    s.takesNext = true ↔ s.phase = .idle ∧ s.pins.rst = false ∧ s.req = [] := by
  simp [State.takesNext, State.reqReady, and_assoc, and_left_comm]

/-- BUILD only adds to OUT. -/
theorem build_out_prefix {s t : State} {ack : Bool} {did cid seq : Byte} {payload : List Byte}
    (h : s.build ack did cid seq payload = .next t) : s.out <+: t.out := by
  obtain ⟨-, heq⟩ | ⟨-, -, heq⟩ | ⟨-, -, heq⟩ | ⟨-, -, heq⟩ := build_cases s ack did cid seq payload <;>
    cases heq.symm.trans h
  · exact List.prefix_rfl -- it waits
  · exact List.prefix_rfl -- it faults
  · exact List.prefix_append .. -- it is carried out

/-- BUILD of a request the block takes next: the request is gone from REQ, and its payload from PAY unless it faults. -/
theorem build_streams_of_takesNext {s t : State} {ack : Bool} {did cid seq : Byte} {payload : List Byte}
    (h : s.build ack did cid seq payload = .next t) (hn : s.takesNext = true) :
    t.req = [] ∧ t.pay = (s.pay ++ payload).drop (if payload.length = 255 then 0 else payload.length) := by
  obtain ⟨-, -, hreq⟩ := (takesNext_eq_true_iff s).mp hn
  obtain ⟨-, heq⟩ | ⟨-, hwait, -⟩ | ⟨hlen, -, heq⟩ | ⟨hlen, -, heq⟩ := build_cases s ack did cid seq payload
  · cases heq.symm.trans h
  · simp [hn] at hwait
  · cases heq.symm.trans h
    simp [hreq, hlen]
  · cases heq.symm.trans h
    have hne : payload.length ≠ 255 := by omega
    simp [hreq, hne, requestOf_len_toNat did cid seq ack hlen]

/-- BUILD of a request that waits: the record and its payload are queued. -/
theorem build_eq_offer {s t : State} {ack : Bool} {did cid seq : Byte} {payload : List Byte}
    (h : s.build ack did cid seq payload = .next t) (hn : ¬ s.takesNext = true) :
    t = s.offer (requestOf did cid seq ack payload) payload := by
  obtain ⟨-, heq⟩ | ⟨-, -, heq⟩ | ⟨-, htakes, -⟩ | ⟨-, htakes, -⟩ := build_cases s ack did cid seq payload
  · cases heq.symm.trans h
  · cases heq.symm.trans h
    rfl
  · exact absurd htakes hn
  · exact absurd htakes hn

/-- Settles O25, operation by operation; BUILD by whether the block takes the request next. -/
theorem requestAndSystemFrame : Obligations.RequestAndSystemFrame := by
  intro s t i h
  obtain ⟨hpins, henv⟩ := exec_sameEnvironment h
  refine ⟨fun hi => ?_, ?_, fun hi => ?_, ?_, hpins, henv, exec_inst h⟩
  · obtain rfl | hi := List.mem_cons.mp hi
    · obtain ⟨hout, hpay, -⟩ := exec_accept_streams h
      exact ⟨hout, hpay⟩
    · obtain ⟨hout, hpay, -⟩ := exec_system_streams hi h
      exact ⟨hout, hpay⟩
  · rintro rfl
    obtain ⟨-, -, hreq⟩ := exec_accept_streams h
    exact hreq
  · obtain ⟨-, -, hreq⟩ := exec_system_streams hi h
    exact hreq
  · rintro ack did cid seq payload rfl
    rw [exec_build] at h
    refine ⟨build_out_prefix h, ?_⟩
    split
    · next hn => exact build_streams_of_takesNext h ((takesNext_eq_true_iff s).mpr hn)
    · next hn =>
      cases build_eq_offer h fun htakes => hn ((takesNext_eq_true_iff s).mp htakes)
      exact ⟨rfl, rfl, rfl⟩

end Sys2Proof.Machine
end

section
/-! PROOF. No edge enters FAULT while every request queued or planned is legal (42_payload_producer.md R138). -/

namespace Sys2Proof.Machine

/-- FAULT is entered by taking a record of length 255 and by nothing else (R110, R151). -/
theorem phase_of_step_to_fault {s t : State} (h : step s = .next t) (ht : t.phase = .fault) :
    s.phase = .fault ∨ ∃ r, s.reqPort = some r ∧ r.len = 255 := by
  have htable := (phaseTransitionTable s t h).symm.trans ht
  cases hp : s.phase with
  | fault => exact .inl rfl
  | idle =>
    cases hport : s.reqPort with
    | none => simp [hp, hport] at htable
    | some r =>
      simp only [hp, hport] at htable
      split at htable
      · cases htable
      · exact .inr ⟨r, rfl, by simpa using htable⟩
  | mka | mkb | did | cid | seq | len | pay | chk =>
    simp only [hp] at htable
    split_ifs at htable

/-- A stream holds after its agent's move what it held before and what the agent added, and nothing else. -/
theorem mem_of_mem_apply {α : Type} {u : Supply α} {stream : List α} {x : α} (h : x ∈ u.apply stream) :
    x ∈ stream ∨ x ∈ u.add := by
  obtain hkept | hadded := List.mem_append.mp h
  · split at hkept
    · cases hkept
    · exact .inl hkept
  · exact .inr hadded

theorem clock_legalRequests {s : State} (h : s.legalRequests) : s.clock.legalRequests := by
  cases he : s.env with
  | nil => rwa [clock_idle s he]
  | cons m rest =>
    obtain ⟨hqueued, hplanned⟩ := h
    rw [he, List.forall_mem_cons] at hplanned
    obtain ⟨hm, hrest⟩ := hplanned
    simp only [State.legalRequests, State.clock, he]
    exact ⟨fun r hr => (mem_of_mem_apply hr).elim (hqueued r) (hm r), hrest⟩

/-- The operation of an edge puts no record on REQ and plans none. -/
theorem exec_legalRequests {s u : State} {i : Instr} (hf : s.fetch = .ok i) (he : exec i s = .next u)
    (h : s.legalRequests) : u.legalRequests := by
  obtain ⟨-, hreq, -⟩ := exec_movesByHandshakes hf he
  obtain ⟨-, henv⟩ := exec_sameEnvironment he
  obtain ⟨hqueued, hplanned⟩ := h
  refine ⟨fun r hr => hqueued r ?_, by rwa [henv]⟩
  rw [hreq] at hr
  split at hr
  · exact List.mem_of_mem_tail hr
  · exact hr

theorem step_legalRequests {s t : State} (h : step s = .next t) (hs : s.legalRequests) : t.legalRequests := by
  obtain ⟨i, u, hfetch, hexec, rfl⟩ := exists_exec_of_step h
  exact clock_legalRequests (exec_legalRequests hfetch hexec hs)

/-- Settles O54: the record that would fault stands at the head of REQ, where every record is legal. -/
theorem legalRequestsNeverFault : Obligations.LegalRequestsNeverFault := by
  intro s t hp hlegal h
  refine ⟨fun ht => ?_, step_legalRequests h hlegal⟩
  obtain hfault | ⟨r, hport, hlen⟩ := phase_of_step_to_fault h ht
  · exact hp hfault
  · obtain ⟨-, rest, hreq⟩ := reqPort_some hport
    obtain ⟨hqueued, -⟩ := hlegal
    exact hqueued r (by simp [hreq]) hlen

end Sys2Proof.Machine
end

section
/-! PROOF. A scalar of the upstream encoder, read most significant byte first (42_payload_producer.md R122, R140). -/

namespace Sys2Proof.Machine.Upstream

/-- A byte string read most significant byte first. -/
def bigEndian (bytes : List Byte) : Nat := bytes.foldl (fun acc b => acc * 256 + b.toNat) 0

theorem bigEndian_snoc (bytes : List Byte) (b : Byte) :
    bigEndian (bytes ++ [b]) = bigEndian bytes * 256 + b.toNat := by
  simp [bigEndian]

/-- The last byte of a scalar is the value modulo 256, and the bytes before it are the scalar of the quotient. -/
theorem scalar_succ (w : Nat) (v : Int) : scalar (w + 1) v = scalar w (v / 256) ++ [BitVec.ofInt 8 v] := by
  have hquotient (i : Nat) (hi : i ∈ List.range w) :
      BitVec.ofInt 8 (v / 256 ^ (w - i)) = BitVec.ofInt 8 (v / 256 / 256 ^ (w - 1 - i)) := by
    have hlt := List.mem_range.mp hi
    have hexp : w - i = w - 1 - i + 1 := by omega
    rw [Int.ediv_ediv_of_nonneg (by decide), ← pow_succ', hexp]
  simp [scalar, List.range_succ, List.map_congr_left hquotient]

theorem ofInt_byte_toNat (v : Int) : ((BitVec.ofInt 8 v).toNat : Int) = v % 256 := by
  rw [BitVec.toNat_ofInt]
  exact Int.toNat_of_nonneg (Int.emod_nonneg v (by decide))

/-- Division in two stages: dividing by 256 first leaves the low byte as the first remainder. -/
theorem emod_256_mul (v m : Int) : v % (256 * m) = v / 256 % m * 256 + v % 256 := by
  simp only [Int.emod_def, ← Int.ediv_ediv_of_nonneg (show (0 : Int) ≤ 256 by decide)]
  ring

/-- A scalar read big-endian is its value modulo `256^w`, whatever the sign. -/
theorem bigEndian_scalar (w : Nat) (v : Int) : (bigEndian (scalar w v) : Int) = v % 256 ^ w := by
  induction w generalizing v with
  | zero => simp [scalar, bigEndian]
  | succ w ih =>
    calc (bigEndian (scalar (w + 1) v) : Int)
        = bigEndian (scalar w (v / 256)) * 256 + (BitVec.ofInt 8 v).toNat := by
          rw [scalar_succ, bigEndian_snoc, Nat.cast_add, Nat.cast_mul, Nat.cast_ofNat]
      _ = v / 256 % 256 ^ w * 256 + v % 256 := by rw [ih, ofInt_byte_toNat]
      _ = v % 256 ^ (w + 1) := by rw [pow_succ', emod_256_mul]

/-- Settles O58, by induction on the width, from the last byte. -/
theorem scalarIsBigEndianModulo : Obligations.ScalarIsBigEndianModulo := fun w v =>
  ⟨scalar_length w v, bigEndian_scalar w v⟩

end Sys2Proof.Machine.Upstream
end

section
/-! PROOF. The caps of the upstream encoder and the BUILDs it hands to the block (42_payload_producer.md R124, R136,
R138). -/

namespace Sys2Proof.Machine.Upstream

/-- Settles O59: a call's BUILD carries at most 254 bytes, and an idle block carries it out whole. -/
theorem encodedOperationsNeverFault : Obligations.EncodedOperationsNeverFault := by
  refine ⟨fun _ _ => encodePayload_length_le, fun op e i h => ?_⟩
  obtain ⟨payload, -, hlen, rfl⟩ := Operation.toInstr_ok h
  refine ⟨fun p => ?_, fun s hp hr hreq => ?_⟩
  · cases e.ack <;> exact decide_eq_true hlen
  · have hnext := takesNext_of_idle hp hr hreq
    exact ⟨_, (exec_build ..).trans (build_of_takesNext hnext _ _ _ _ hlen), buildHead_phase ..⟩

theorem capped_of_le {cap : Nat} (lead : List Byte) {bytes : List Byte} (h : bytes.length ≤ cap) :
    capped cap lead bytes = .ok (lead ++ bytes) := if_neg (by omega)

theorem capped_of_lt {cap : Nat} (lead : List Byte) {bytes : List Byte} (h : cap < bytes.length) :
    capped cap lead bytes = .error (.payloadTooLarge bytes.length cap) := if_pos h

/-- A refused payload makes no BUILD (R138). -/
theorem Operation.toInstr_of_refused {op : Operation} {err : Error} (e : Envelope)
    (h : encodePayload op.shape = .error err) : op.toInstr e = .error err := by
  simp only [Operation.toInstr, h]

/-- Settles O60: both uploads are capped, and what the cap refuses makes no BUILD. -/
theorem uploadCapsAreExact : Obligations.UploadCapsAreExact := fun e area _ =>
  ⟨capped_of_le [], fun h => ⟨capped_of_lt [] h, (saveMacro _).toInstr_of_refused e (capped_of_lt [] h)⟩,
    capped_of_le [area], capped_of_lt [area], fun op _ => op.toInstr_of_refused e⟩

end Sys2Proof.Machine.Upstream
end

section
/-! PROOF. The entry of LenFault at an ACCEPT, and the priority of reset, fault and latch at one edge (60_exceptions.md
R151, R152, R158). -/

namespace Sys2Proof.Machine

/-- Taking a record writes either the phase alone, or the latches, `rem` and `sum` (R101, R152). -/
theorem takeRequest_fault_or_latch (s : State) (r : Request) :
    ((s.takeRequest r).phase = .fault ∧ (s.takeRequest r).latched = s.latched ∧ (s.takeRequest r).rem = s.rem ∧
        (s.takeRequest r).sum = s.sum ∧ r.len = 255) ∨
      ((s.takeRequest r).phase = .mka ∧ (s.takeRequest r).latched = r ∧ (s.takeRequest r).rem = r.len ∧
        (s.takeRequest r).sum = 0 ∧ r.len ≠ 255) := by
  by_cases h : r.len = 255
  · rw [takeRequest_illegal h]
    exact .inl ⟨rfl, rfl, rfl, rfl, h⟩
  · rw [takeRequest_legal h]
    exact .inr ⟨rfl, rfl, rfl, rfl, h⟩

/-- Settles O7: RESET comes before every handshake, and a record that is taken faults or is latched. -/
theorem resetThenFaultThenLatch : Obligations.ResetThenFaultThenLatch := by
  refine fun s => ⟨fun hr => ?_, fun r htaken => ⟨_, step_of_reqHandshake htaken, ?_⟩⟩
  · obtain ⟨hreq, hpl, hout⟩ := handshakes_of_rst hr
    exact ⟨hreq, hpl, hout, _, step_rst hr, by simp, by simp⟩
  · simpa using takeRequest_fault_or_latch s r

/-- Settles O50: phase by phase in the transition table, where FAULT is entered from IDLE alone. -/
theorem lenFaultExactlyOnLen255 : Obligations.LenFaultExactlyOnLen255 := by
  intro s t hne h
  rw [phaseTransitionTable s t h]
  cases hr : s.pins.rst with
  | true => simp
  | false =>
    cases hp : s.phase with
    | idle => cases s.reqPort <;> simp
    | mka | mkb | did | cid | seq | len | pay | chk =>
      simp only
      split_ifs <;> simp
    | fault => exact absurd hp hne

/-- Settles O51: the record taken is illegal, so LenFault is entered; nothing is handed over on PAY outside PAY. -/
theorem lenFaultIsPrecise : Obligations.LenFaultIsPrecise := by
  intro s r htaken hlen
  obtain ⟨-, hidle, -⟩ := reqHandshake_eq_some_iff.mp htaken
  have hfault := takeRequest_illegal (s := s) hlen
  refine ⟨s.popReq.enterLenFault, ?_, ?_, plHandshake_of_not_pay (by simp [hidle]), rfl⟩
  · simp only [exec, execAccept, htaken, hfault]
  · rw [step_of_reqHandshake htaken, hfault]

end Sys2Proof.Machine
end

section
/-! PROOF. Blocks that hold for ever: the faulted block until a reset, and the block in PAY whose producer adds nothing
(60_exceptions.md R153, R154, R155). -/

namespace Sys2Proof.Machine

/-- Settles O17: the step of FAULTED is its hold, and a good end is idle. -/
theorem faultedDoesNothing : Obligations.FaultedDoesNothing := fun _ hp =>
  ⟨rfl, fun hr => step_fault hr hp, reqHandshake_of_not_idle (by simp [hp]),
    fun _ ⟨hidle, _⟩ => by simp [hp] at hidle, outputs_fault hp⟩

/-- Settles O53: the row of FAULT in the transition table. -/
theorem onlyResetLeavesFault : Obligations.OnlyResetLeavesFault := by
  intro s t hp h
  have hphase : t.phase = if s.pins.rst then .idle else .fault := by simpa [hp] using phaseTransitionTable s t h
  refine ⟨reqHandshake_of_not_idle (by simp [hp]), hphase, ?_⟩
  cases hr : s.pins.rst <;> simp [State.faultOut, hphase, hr]

theorem sameBlock_phase {s t : State} (h : s.sameBlock t) : t.phase = s.phase := by
  obtain ⟨hphase, -⟩ := h
  exact hphase

theorem sameBlock_trans {s t u : State} (hst : s.sameBlock t) (htu : t.sameBlock u) : s.sameBlock u := by
  simp_all [State.sameBlock]

/-- A condition under which every edge is a hold, and which the environment's moves keep, holds the block for ever. -/
theorem exists_run_sameBlock_of_hold {P : State → Prop} (hstep : ∀ s, P s → step s = .next s.clock)
    (hkeep : ∀ s, P s → P s.clock) (n : Nat) {s : State} (h : P s) : ∃ t, runEdges n s = .next t ∧ s.sameBlock t := by
  induction n generalizing s with
  | zero => exact ⟨s, rfl, by simp [State.sameBlock]⟩
  | succ n ih =>
    obtain ⟨t, hrun, hsame⟩ := ih (hkeep s h)
    exact ⟨t, (run_of_step (hstep s h)).trans hrun, sameBlock_trans (sameBlock_clock s) hsame⟩

/-- Faulted, with no reset now or planned. -/
def State.faultedForGood (s : State) : Prop := s.phase = .fault ∧ s.noReset

theorem step_of_faultedForGood (s : State) (h : s.faultedForGood) : step s = .next s.clock := by
  obtain ⟨hp, hr, -⟩ := h
  exact step_fault hr hp

theorem clock_faultedForGood (s : State) (h : s.faultedForGood) : s.clock.faultedForGood := by
  obtain ⟨hp, hreset⟩ := h
  exact ⟨(clock_phase s).trans hp, clock_noReset hreset⟩

/-- Settles O52: every edge of a faulted block out of reset is a hold. -/
theorem faultLastsUntilReset : Obligations.FaultLastsUntilReset := by
  intro n s hp hreset
  obtain ⟨t, hrun, hsame⟩ :=
    exists_run_sameBlock_of_hold step_of_faultedForGood clock_faultedForGood n ⟨hp, hreset⟩
  exact ⟨t, hrun, hsame, by simp [State.faultOut, sameBlock_phase hsame, hp]⟩

theorem payloadToCome_eq_nil_iff (s : State) :
    s.payloadToCome = [] ↔ s.pay = [] ∧ ∀ m ∈ s.env, m.pays.add = [] := by
  simp [State.payloadToCome]

/-- A producer with nothing on PAY and nothing planned has nothing after its move, whether it empties PAY or not. -/
theorem clock_payloadToCome_nil {s : State} (h : s.payloadToCome = []) : s.clock.payloadToCome = [] := by
  cases he : s.env with
  | nil => rwa [clock_idle s he]
  | cons m rest =>
    obtain ⟨hpay, hplan⟩ := (payloadToCome_eq_nil_iff s).mp h
    rw [he, List.forall_mem_cons] at hplan
    obtain ⟨hm, hrest⟩ := hplan
    rw [payloadToCome_eq_nil_iff]
    simpa [State.clock, he, Supply.apply, hpay, hm] using hrest

/-- In PAY with no payload byte queued or to come, and no reset now or planned (R155). -/
def State.starved (s : State) : Prop := s.phase = .pay ∧ s.noReset ∧ s.payloadToCome = []

theorem step_of_starved (s : State) (h : s.starved) : step s = .next s.clock := by
  obtain ⟨hp, ⟨hr, -⟩, hnone⟩ := h
  obtain ⟨hpay, -⟩ := (payloadToCome_eq_nil_iff s).mp hnone
  have hport : s.plPort = none := by simp [State.plPort, hpay]
  simp only [step_pay hr hp, hport]

theorem clock_starved (s : State) (h : s.starved) : s.clock.starved := by
  obtain ⟨hp, hreset, hnone⟩ := h
  exact ⟨(clock_phase s).trans hp, clock_noReset hreset, clock_payloadToCome_nil hnone⟩

/-- Settles O55: every edge of a starved block is a hold in PAY. -/
theorem underRunWaitsForEver : Obligations.UnderRunWaitsForEver := by
  intro n s hp hpay hreset hplan
  have hstarved : s.starved := ⟨hp, hreset, (payloadToCome_eq_nil_iff s).mpr ⟨hpay, hplan⟩⟩
  obtain ⟨t, hrun, hsame⟩ := exists_run_sameBlock_of_hold step_of_starved clock_starved n hstarved
  have hphase := (sameBlock_phase hsame).trans hp
  exact ⟨t, hrun, hsame, by simp [State.busy, hphase], by simp [State.faultOut, hphase]⟩

end Sys2Proof.Machine
end

section
/-! PROOF. RESET: every register, no handshake, and the frame it cuts (70_reset_and_hazards.md R171, R172). -/

namespace Sys2Proof.Machine

theorem exec_reset_of_rst {s : State} (hr : s.pins.rst = true) : exec .reset s = .next s.resetRegs := by
  simp [exec, execReset, hr]

/-- Settles O18: RESET in any phase, and without it the hold of a faulted block. -/
theorem resetClearsEveryRegister : Obligations.ResetClearsEveryRegister := by
  refine fun s => ⟨fun hr => ?_, fun t hr hp h => ?_⟩
  · obtain ⟨hreq, hpl, hout⟩ := handshakes_of_rst hr
    exact ⟨s.resetRegs, exec_reset_of_rst hr, step_rst hr, rfl, hreq, hpl, hout, outputs_idle rfl⟩
  · cases (step_fault hr hp).symm.trans h
    exact (clock_phase s).trans hp

theorem last_eq_false_of_mem_untagged {bytes : List Byte} {b : OutByte} (h : b ∈ untagged bytes) : b.last = false := by
  obtain ⟨v, -, rfl⟩ := List.mem_map.mp h
  rfl

/-- Settles O56: RESET leaves the streams, and in a frame OUT holds what the phase says was emitted. -/
theorem resetCutsTheFrame : Obligations.ResetCutsTheFrame := by
  intro s base p ⟨_, _, _, hout⟩ hr
  exact ⟨s.resetRegs, exec_reset_of_rst hr, step_rst hr, rfl, rfl, rfl, hout, fun _ => last_eq_false_of_mem_untagged⟩

end Sys2Proof.Machine
end

section
/-! PROOF. An offered byte that the sink does not take: the edge is a hold (10_state.md R38, 70_reset_and_hazards.md
R177, R178). -/

namespace Sys2Proof.Machine

theorem phase_of_outValid {s : State} (h : s.outValid = true) : s.phase ≠ .idle ∧ s.phase ≠ .fault := by
  constructor <;> intro hp <;> simp [State.outValid, State.outData, hp] at h

/-- The sink's level alone decides whether an offered byte is handed over. -/
theorem outReady_eq_false_of_not_taken {s : State} (hr : s.pins.rst = false) (hv : s.outValid = true)
    (hnone : s.outHandshake = none) : s.pins.outReady = false := by
  cases ho : s.pins.outReady with
  | false => rfl
  | true =>
    have hdata : s.outData = none := by simpa [State.outHandshake, ho, hr] using hnone
    simp [State.outValid, hdata] at hv

/-- An edge with a next state whose offered byte is not taken is a hold. -/
theorem eq_clock_of_not_taken {s t : State} (h : step s = .next t) (hr : s.pins.rst = false) (hv : s.outValid = true)
    (hnone : s.outHandshake = none) : t = s.clock := by
  have ho := outReady_eq_false_of_not_taken hr hv hnone
  obtain ⟨hidle, hfault⟩ := phase_of_outValid hv
  have hseq : s.phase = .seq → s.inst.seqInFrame = true := fun hp =>
    Bool.eq_true_of_not_eq_false fun hs => by simp [step_seq_absent hr hp hs] at h
  have hkind : (s.phase ≠ .idle ∧ s.phase ≠ .pay ∧ s.phase ≠ .fault ∧ s.pins.outReady = false) ∨
      (s.phase = .pay ∧ (s.plPort = none ∨ s.pins.outReady = false)) := by
    by_cases hp : s.phase = .pay
    · exact .inr ⟨hp, .inr ho⟩
    · exact .inl ⟨hidle, hp, hfault, ho⟩
  obtain ⟨hstep, -⟩ := holdEdgeChangesNothing s hr hseq (.inr (hkind.imp_right .inl))
  cases h.symm.trans hstep
  rfl

/-- Outside PAY the byte offered is a function of the registers and the parameters (R38). -/
theorem clock_outData {s : State} (hp : s.phase ≠ .pay) : s.clock.outData = s.outData := by
  cases h : s.phase with
  | pay => exact absurd h hp
  | idle | mka | mkb | did | cid | seq | len | chk | fault =>
    simp [State.outData, h, State.lengthByte, State.checksumByte]

/-- Settles O29: the edge is a hold; in PAY the byte is the producer's, who keeps his offer. -/
theorem offeredByteIsStable : Obligations.OfferedByteIsStable := by
  intro s t h hr hv hnone hkept
  cases eq_clock_of_not_taken h hr hv hnone
  have hdata : s.clock.outData = s.outData := by
    by_cases hp : s.phase = .pay
    · obtain ⟨-, hpl⟩ := hkept hp
      have hport : s.outData = s.plPort := by simp [State.outData, hp]
      have hport' : s.clock.outData = s.clock.plPort := by simp [State.outData, hp]
      rw [hport, hport']
      exact hpl (hport ▸ hv) ((plHandshake_eq_outHandshake hp).trans hnone)
    · exact clock_outData hp
  exact ⟨(congrArg Option.isSome hdata).trans hv, hdata, by simp [State.outLast], clock_phase s⟩

end Sys2Proof.Machine
end

section
/-! PROOF. A queue of requests carried out one after another (20_memory.md R42, R43, R51, 70_reset_and_hazards.md R184,
R186). -/

namespace Sys2Proof.Machine

/-- Settles O48, by induction on the queue: the run of its head leaves the state BUILD leaves, with the rest queued. -/
theorem queueEndsWellWithItsFrames : Obligations.QueueEndsWellWithItsFrames := by
  intro s hidle hw hlegal hpay
  induction hreq : s.req generalizing s with
  | nil =>
    have hnil : s.pay = [] := List.length_eq_zero_iff.mp (by simpa [hreq] using hpay)
    refine ⟨s, rfl, hidle, ?_, ?_, hreq, hnil, ?_⟩
    · simp [State.busy, hidle]
    · simp [State.faultOut, hidle]
    · simp [framesOf]
  | cons r rest ih =>
    rw [hreq] at hlegal hpay
    obtain ⟨hr, hrest⟩ := List.forall_mem_cons.mp hlegal
    rw [List.map_cons, List.sum_cons] at hpay
    have hrun := run_eq_buildHead hidle hw hreq hr (by omega)
    have htail : (s.buildHead r).req = rest := by rw [buildHead_req, hreq, List.tail_cons]
    have hcount : (s.buildHead r).pay.length = ((s.buildHead r).req.map fun r => r.len.toNat).sum := by
      rw [htail, buildHead_pay, List.length_drop, hpay, Nat.add_sub_cancel_left]
    obtain ⟨t, ht, hend⟩ := ih (s.buildHead r) rfl hw (by rwa [htail]) hcount htail
    refine ⟨t, (run_add hrun).trans ht, ?_⟩
    simpa [framesOf] using hend

end Sys2Proof.Machine
end

section
/-! PROOF. What is queued and planned on REQ and PAY, from edge to edge, while nothing is withdrawn
(70_reset_and_hazards.md R173, R179, R182). -/

namespace Sys2Proof.Machine

/-- The records on REQ and those the planned moves add, in order, while the requester empties nothing. -/
def State.requestsToCome (s : State) : List Request := s.req ++ s.env.flatMap fun m => m.reqs.add

theorem apply_of_not_flush {α : Type} {u : Supply α} (h : u.flush = false) (stream : List α) :
    u.apply stream = stream ++ u.add := by
  simp [Supply.apply, h]

theorem clock_payloadToCome {s : State} (h : s.noFlush) : s.clock.payloadToCome = s.payloadToCome := by
  cases he : s.env with
  | nil => rw [clock_idle s he]
  | cons m rest => simp [State.payloadToCome, State.clock, he, apply_of_not_flush (h m (by simp [he]))]

theorem clock_requestsToCome {s : State} (h : ∀ m ∈ s.env, m.reqs.flush = false) :
    s.clock.requestsToCome = s.requestsToCome := by
  cases he : s.env with
  | nil => rw [clock_idle s he]
  | cons m rest => simp [State.requestsToCome, State.clock, he, apply_of_not_flush (h m (by simp [he]))]

/-- The record handed over on REQ is its head (R41). -/
theorem reqHandshake_append_tail (s : State) :
    s.reqHandshake.toList ++ (if s.reqHandshake.isSome then s.req.tail else s.req) = s.req := by
  cases h : s.reqHandshake with
  | none => rfl
  | some r =>
    obtain ⟨-, -, hport⟩ := reqHandshake_eq_some_iff.mp h
    obtain ⟨-, rest, hreq⟩ := reqPort_some hport
    simp [hreq]

/-- Of the payload bytes to come an edge takes the one handed over and no other. -/
theorem step_payloadToCome {s t : State} (h : step s = .next t) (hs : s.noFlush) :
    s.payloadToCome = s.plHandshake.toList ++ t.payloadToCome := by
  obtain ⟨i, u, hfetch, hexec, rfl⟩ := exists_exec_of_step h
  obtain ⟨-, henv⟩ := exec_sameEnvironment hexec
  obtain ⟨-, -, hpay⟩ := exec_movesByHandshakes hfetch hexec
  rw [clock_payloadToCome (by rwa [State.noFlush, henv]), State.payloadToCome, State.payloadToCome, hpay, henv,
    ← List.append_assoc, plHandshake_append_tail]

/-- Of the requests to come an edge takes the one handed over and no other. -/
theorem step_requestsToCome {s t : State} (h : step s = .next t) (hs : ∀ m ∈ s.env, m.reqs.flush = false) :
    s.requestsToCome = s.reqHandshake.toList ++ t.requestsToCome := by
  obtain ⟨i, u, hfetch, hexec, rfl⟩ := exists_exec_of_step h
  obtain ⟨-, henv⟩ := exec_sameEnvironment hexec
  obtain ⟨-, hreq, -⟩ := exec_movesByHandshakes hfetch hexec
  rw [clock_requestsToCome (by rwa [henv]), State.requestsToCome, State.requestsToCome, hreq, henv,
    ← List.append_assoc, reqHandshake_append_tail]

theorem clock_env (s : State) : s.clock.env = s.env.tail := by
  unfold State.clock
  split <;> simp [*]

theorem step_env {s t : State} (h : step s = .next t) : t.env = s.env.tail := by
  obtain ⟨i, u, -, hexec, rfl⟩ := exists_exec_of_step h
  obtain ⟨-, henv⟩ := exec_sameEnvironment hexec
  rw [clock_env, henv]

theorem step_noWithdrawal {s t : State} (h : step s = .next t) (hs : s.noWithdrawal) : t.noWithdrawal := by
  intro m hm
  rw [step_env h] at hm
  exact hs m (List.mem_of_mem_tail hm)

end Sys2Proof.Machine
end

section
/-! PROOF. The payload account: supplied and asked for (70_reset_and_hazards.md R179). -/

namespace Sys2Proof.Machine

theorem supplied_eq (s : State) : s.supplied = s.payloadToCome.length := by
  simp [State.supplied, State.payloadToCome, List.length_flatMap]

theorem demand_eq (s : State) : s.demand = s.owed + (s.requestsToCome.map fun r => r.len.toNat).sum := by
  simp [State.demand, State.requestsToCome, List.flatMap_def, List.sum_flatten, List.map_flatten, Function.comp_def,
    Nat.add_assoc]

/-- A block without a frame owes nothing. -/
theorem owed_of_not_busy {s : State} (h : s.phase = .idle ∨ s.phase = .fault) : s.owed = 0 := by
  obtain hp | hp := h <;> simp [State.owed, State.busy, hp]

theorem owed_of_inFrame {s : State} {base : List OutByte} {p : List Byte} (h : s.inFrame base p) :
    s.owed = s.rem.toNat := by
  have ⟨_, ⟨_, hrem⟩, _⟩ := h
  have hfault : s.phase ≠ .fault := fun hp => by simp only [hp] at hrem
  simp [State.owed, State.busy, inFrame_phase_ne_idle h, hfault]

/-- An edge of a frame in progress pays off the byte it takes. -/
theorem step_owed_of_inFrame {s t : State} {base : List OutByte} {p : List Byte} (h : s.inFrame base p)
    (hr : s.pins.rst = false) (hstep : step s = .next t) : t.owed + s.plHandshake.toList.length = s.owed := by
  obtain ⟨u, hu, hlatched, -, hend⟩ := frameAdvancesByOneEdge s base p h hr
  cases hu.symm.trans hstep
  have hcount := inFrame_count h
  rw [owed_of_inFrame h]
  split at hend
  · next hdone =>
    obtain ⟨hidle, hall, -⟩ := hend
    obtain ⟨hchk, -⟩ := hdone
    rw [owed_of_not_busy (.inl hidle), plHandshake_of_not_pay (by simp [hchk]), Option.toList_none, List.length_nil]
    omega
  · have hlenR : t.lenR = s.lenR := congrArg Request.len hlatched
    have hcount' := inFrame_count hend
    rw [owed_of_inFrame hend]
    rw [hlenR, List.length_append] at hcount'
    omega

/-- An edge of an idle or faulted block that takes no record leaves it without a frame. -/
theorem step_owed_of_no_request {s t : State} (hp : s.phase = .idle ∨ s.phase = .fault)
    (hnone : s.reqHandshake = none) (hr : s.pins.rst = false) (hstep : step s = .next t) : t.owed = 0 := by
  have ht : t = s.clock := by
    obtain hidle | hfault := hp
    · have hport : s.reqPort = none := by simpa [State.reqHandshake, State.reqReady, hidle, hr] using hnone
      simpa [step_idle hr hidle, hport, eq_comm] using hstep
    · simpa [step_fault hr hfault, eq_comm] using hstep
  rw [ht, owed_of_not_busy (by rwa [clock_phase])]

/-- What is owed changes by the record taken and the byte taken. -/
theorem step_owed {s t : State} (h : s.inv) (hr : s.pins.rst = false) (hlegal : s.legalRequests)
    (hstep : step s = .next t) :
    t.owed + s.plHandshake.toList.length = s.owed + (s.reqHandshake.toList.map fun r => r.len.toNat).sum := by
  by_cases hframe : ∃ base p, s.inFrame base p
  · obtain ⟨base, p, hf⟩ := hframe
    rw [reqHandshake_of_not_idle (inFrame_phase_ne_idle hf)]
    simpa using step_owed_of_inFrame hf hr hstep
  · have hp : s.phase = .idle ∨ s.phase = .fault := (or_assoc.mpr h).resolve_right hframe
    rw [owed_of_not_busy hp, plHandshake_of_not_pay (fun hpay => by simp [hpay] at hp)]
    cases htaken : s.reqHandshake with
    | none => simpa using step_owed_of_no_request hp htaken hr hstep
    | some r =>
      obtain ⟨-, -, hport⟩ := reqHandshake_eq_some_iff.mp htaken
      obtain ⟨-, rest, hreq⟩ := reqPort_some hport
      obtain ⟨hqueued, -⟩ := hlegal
      have hlen : r.len ≠ 255 := hqueued r (by simp [hreq])
      cases (step_of_reqHandshake htaken).symm.trans hstep
      rw [owed_of_inFrame ((clock_inFrame ..).mpr (takeRequest_inFrame s hlen)), clock_rem, takeRequest_legal hlen]
      simp

/-- Settles O57: both sides of the account lose the byte handed over on PAY; a record taken moves from the requests to
come to what is owed. -/
theorem payloadAccountBalances : Obligations.PayloadAccountBalances := by
  intro s t hinv hreset hlegal hkept hbal hstep
  obtain ⟨-, hinv'⟩ := everyStepKeepsTheInvariant s t hstep
  refine ⟨hinv' hinv, step_noReset hstep hreset, step_legalRequests hstep hlegal, step_noWithdrawal hstep hkept, ?_⟩
  have howed := step_owed hinv hreset.1 hlegal hstep
  have hpay := congrArg List.length (step_payloadToCome hstep fun m hm => (hkept m hm).2)
  have hreq := step_requestsToCome hstep fun m hm => (hkept m hm).1
  rw [supplied_eq, demand_eq, hreq, List.map_append, List.sum_append] at hbal
  rw [List.length_append] at hpay
  rw [supplied_eq, demand_eq]
  omega

end Sys2Proof.Machine
end

section
/-! PROOF. A frame in progress under a fair environment (70_reset_and_hazards.md R185): each planned move is used up by
an edge that carries the frame on, and when none is left nobody waits any more. -/

namespace Sys2Proof.Machine

/-- The levels after all planned moves. -/
def State.lastPins (s : State) : Pins := (s.env.getLast?.map EnvMove.pins).getD s.pins

theorem clock_lastPins (s : State) : s.clock.lastPins = s.lastPins := by
  cases he : s.env with
  | nil => rw [clock_idle s he]
  | cons m rest => cases h : rest.getLast? <;> simp [State.lastPins, State.clock, he, List.getLast?_cons, h]

theorem step_lastPins {s t : State} (h : step s = .next t) : t.lastPins = s.lastPins := by
  obtain ⟨i, u, -, hexec, rfl⟩ := exists_exec_of_step h
  obtain ⟨hpins, henv⟩ := exec_sameEnvironment hexec
  rw [clock_lastPins, State.lastPins, State.lastPins, hpins, henv]

/-- With no move planned these are the levels for ever. -/
theorem willing_of_lastPins {s : State} (henv : s.env = []) (h : s.lastPins = Pins.willing) : s.willing :=
  ⟨by simpa [State.lastPins, henv] using h, henv⟩

/-- The state from which the block would have come into the frame at hand with nobody ever waiting: its request at the
head of REQ, the bytes `p` consumed since still on PAY, and OUT as it was. -/
def State.beforeFrame (s : State) (base : List OutByte) (p : List Byte) : State :=
  { s with req := s.latched :: s.req, pay := p ++ s.pay, out := base }

section

variable {s : State} {base : List OutByte} {p : List Byte}

theorem building_beforeFrame (h : s.inFrame base p) (hw : s.willing) :
    (s.beforeFrame base p).building s.latched p s :=
  { inFrame := h, latched := rfl, inst := rfl, req := rfl, pay := rfl, willing := hw, willing₀ := hw }

/-- Before the checksum at most `L + 5 + S` bytes are out (R50). -/
theorem inFrame_emitted_length_le (h : s.inFrame base p) :
    (s.emitted p).length ≤ s.lenR.toNat + 5 + seqCount s.inst := by
  have hcount := inFrame_count h
  cases hp : s.phase <;> simp [State.emitted, State.summed, hp] <;> omega

/-- The payload of the frame: the bytes consumed and the first of those to come. -/
theorem inFrame_payload (h : s.inFrame base p) :
    p ++ s.payloadToCome.take s.rem.toNat = (p ++ s.payloadToCome).take s.lenR.toNat := by
  rw [← inFrame_count h, List.take_length_add_append]

/-- When nobody waits any more, the rest of the frame takes an edge a byte. -/
theorem exists_run_completes_of_willing (h : s.inFrame base p) (hw : s.willing)
    (hlen : s.lenR.toNat ≤ (p ++ s.pay).length) :
    ∃ n t, n ≤ s.lenR.toNat + 6 + seqCount s.inst ∧ runEdges n s = .next t ∧ t.phase = .idle ∧
      t.out = base ++ frameOut s.inst s.latched ((p ++ s.pay).take s.lenR.toNat) := by
  obtain ⟨n, hn⟩ := Nat.exists_eq_add_of_le (inFrame_emitted_length_le h)
  have hout : s.out.length + n = base.length + (s.lenR.toNat + 5 + seqCount s.inst) := by
    rw [inFrame_out_length h]
    omega
  exact ⟨n + 1, _, by omega, run_building (building_beforeFrame h hw) hlen hout, rfl, rfl⟩

end

/-- By induction on the planned moves: an edge with a move planned completes the frame, or carries it on with that move
used up; with none planned everyone is willing. -/
theorem exists_run_completes {base : List OutByte} {env : List EnvMove} {s : State} {p : List Byte}
    (henv : s.env = env) (h : s.inFrame base p) (hreset : s.noReset) (hflush : s.noFlush)
    (hlen : s.lenR.toNat ≤ (p ++ s.payloadToCome).length) (hlast : s.lastPins = Pins.willing) :
    ∃ n t, n ≤ env.length + (s.lenR.toNat + 6 + seqCount s.inst) ∧ runEdges n s = .next t ∧ t.phase = .idle ∧
      t.out = base ++ frameOut s.inst s.latched ((p ++ s.payloadToCome).take s.lenR.toNat) := by
  induction env generalizing s p with
  | nil =>
    have hpay : s.payloadToCome = s.pay := by simp [State.payloadToCome, henv]
    rw [hpay] at hlen ⊢
    simpa using exists_run_completes_of_willing h (willing_of_lastPins henv hlast) hlen
  | cons m rest ih =>
    obtain ⟨u, hstep, hlatched, hinst, hu⟩ := frameAdvancesByOneEdge s base p h hreset.1
    split at hu
    · obtain ⟨hidle, hall, hout⟩ := hu
      rw [List.take_left' hall]
      exact ⟨1, u, by omega, run_of_step hstep, hidle, hout⟩
    · have hlenR : u.lenR = s.lenR := congrArg Request.len hlatched
      have hbytes : (p ++ s.plHandshake.toList) ++ u.payloadToCome = p ++ s.payloadToCome := by
        rw [List.append_assoc, step_payloadToCome hstep hflush]
      obtain ⟨n, t, hn, hrun, hend⟩ := ih (by rw [step_env hstep, henv, List.tail_cons]) hu
        (step_noReset hstep hreset) (step_noFlush hstep hflush) (by rwa [hbytes, hlenR])
        ((step_lastPins hstep).trans hlast)
      rw [hbytes, hlenR, hinst, hlatched] at hend
      rw [hlenR, hinst] at hn
      exact ⟨n + 1, t, by rw [List.length_cons]; omega, (run_of_step hstep).trans hrun, hend⟩

/-- Settles O45: the run completes with the payload bytes consumed and to come, of which the frame takes `L`. -/
theorem fairFrameCompletes : Obligations.FairFrameCompletes := by
  intro s base p h hreset hflush hsupply hlast
  have hlen : s.lenR.toNat ≤ (p ++ s.payloadToCome).length := by
    rw [← inFrame_count h, List.length_append]
    omega
  obtain ⟨n, t, hn, hrun⟩ := exists_run_completes rfl h hreset hflush hlen hlast
  rw [← inFrame_payload h] at hrun
  exact ⟨n, t, by omega, hrun⟩

end Sys2Proof.Machine
end
